-- ==== Sys2Proof/Word.lean ====
section
/-! DEFINITION. The word types of the memory link, of the register map and of the Timebase. -/

namespace Sys2Proof

/-- One byte of the management port. -/
abbrev Byte := BitVec 8

/-- One word of the memory link (00, Conventions: a word is 32 bits). -/
abbrev Word := BitVec 32

/-- A Timebase value in microseconds, counted modulo 2^32 (R137). -/
abbrev Time := BitVec 32

/-- The number of a ring, 0..15. -/
abbrev RingId := Fin 16

/-- The identity an upstream request carries for its issuer, 0..15. -/
abbrev Requester := Fin 16

/-- The number by which a requester tells its requests apart, 0..7. -/
abbrev UTag := Fin 8

/-- A downstream tag, 0..63. -/
abbrev DTag := Fin 64

/-- A sparse table: (key, value) pairs with rising keys, no value equal to what an unlisted key
reads as. The operations that keep this form stand in Machine/Ops.lean. -/
abbrev Sparse (α : Type) := List (Nat × α)

/-- Every ring, in the order of its number. -/
def allRings : List RingId := [0, 1, 2, 3, 4, 5, 6, 7, 8, 9, 10, 11, 12, 13, 14, 15]

/-- Every downstream tag, lowest first. -/
def allTags : List DTag := List.finRange 64

end Sys2Proof
end

