-- ==== Sys2Proof/Syntax.lean ====
section
/-! DEFINITION. The commands of the part: one constructor for each row of spec/opcode_table.json. -/

namespace Sys2Proof

/-- The direction of a memory-link request (table 1.1). -/
inductive Dir where
  | read
  | write
deriving DecidableEq, Repr

/-- The status of a memory-link response (table 1.2). -/
inductive Status where
  | ok
  | error
deriving DecidableEq, Repr

/-- An upstream request (table 1.1). `data` and `lanes` are empty on a READ. -/
structure UpRequest where
  dir : Dir
  requester : Requester
  tag : UTag
  addr : Word
  count : Nat
  data : List Word
  lanes : List (BitVec 4)
deriving DecidableEq, Repr

/-- The steps of the part, one for each row of the table. -/
inductive Instr where
  /-- POWER_ON (R48): `pins` is what ADDR1 and ADDR0 present, ADDR1 the more significant (R171). -/
  | powerOn (pins : BitVec 2)
  /-- RESET_N_ASSERT (R21). -/
  | resetNAssert
  /-- RESET_N_RELEASE (R21): `pins` as at POWER_ON. -/
  | resetNRelease (pins : BitVec 2)
  /-- TIMEBASE_TICK (R137). -/
  | timebaseTick
  /-- UPSTREAM_REQUEST (R1). -/
  | upstreamRequest (q : UpRequest)
  /-- DOWNSTREAM_ISSUE (R13). -/
  | downstreamIssue
  /-- DOWNSTREAM_RESPONSE (R14): `data` is present on an OK response to a read only. -/
  | downstreamResponse (tag : DTag) (status : Status) (data : List Word)
  /-- RESPONSE_TIMEOUT (R15). -/
  | responseTimeout (tag : DTag)
  /-- QUARANTINE_EXPIRY (R16). -/
  | quarantineExpiry (tag : DTag)
  /-- PUT_PARK_EXPIRY (R68). -/
  | putParkExpiry (r : RingId)
  /-- TAKE_PARK_EXPIRY (R119). -/
  | takeParkExpiry (r : RingId)
  /-- AGE_EXPIRY (R132). -/
  | ageExpiry (r : RingId)
  /-- SEARCH_TIMER_EXPIRY (R99). -/
  | searchTimerExpiry (r : RingId)
  /-- ONE_SECOND_BOUNDARY (R140). -/
  | oneSecondBoundary (r : RingId)
  /-- LATE_TIMER_EXPIRY (R143). -/
  | lateTimerExpiry (r : RingId)
  /-- ENTRY_TO_IDLE (R36). -/
  | entryToIdle (r : RingId)
  /-- START (R31): the byte 1 at the command field of ring `r`'s page (R178). -/
  | start (r : RingId)
  /-- STOP (R32): the byte 2 at that field. -/
  | stop (r : RingId)
  /-- ABORT (R34): the byte 3 at that field. -/
  | abort (r : RingId)
  /-- FLUSH (R37): the byte 4 at that field. -/
  | flush (r : RingId)
  /-- SNAPSHOT (R38): the byte 5 at that field. -/
  | snapshot (r : RingId)
  /-- SOFT_RESET (R177): the byte 1 at the global command field. -/
  | softReset
  /-- SURVEY_ARM (R149): the byte 2 at the global command field. -/
  | surveyArm
  /-- SURVEY_DISARM (R150): the byte 3 at the global command field. -/
  | surveyDisarm
  /-- SURVEY_INTERVAL_EXPIRY (R151). -/
  | surveyIntervalExpiry
  /-- SYNC_EDGE (R153): a change of SYNC from low to high if `rising`, else from high to low. -/
  | syncEdge (rising : Bool)
  /-- SYNC_DELAY_EXPIRY (R153). -/
  | syncDelayExpiry
  /-- HOLDOFF_EXPIRY (R154). -/
  | holdoffExpiry
  /-- COALESCING_TICK (R166). -/
  | coalescingTick
  /-- PULSE_END (R167). -/
  | pulseEnd
  /-- FLAG_CLEAR (R163): a data byte at a byte of a flag field. -/
  | flagClear (b : Byte)
  /-- ENABLE_WRITE (R164): a data byte at a byte of an enable field. -/
  | enableWrite (b : Byte)
  /-- ADDRESS_BYTE (R171): a start condition, a 7-bit device address and the direction bit. -/
  | addressByte (addr : BitVec 7) (read : Bool)
  /-- STOP_CONDITION (R171). -/
  | stopCondition
  /-- SUBADDRESS_BYTE (R171): the first byte of a write transaction after its address byte. -/
  | subaddressByte (b : Byte)
  /-- PAGE_REGISTER_WRITE (R173): a data byte at subaddress 0x00. -/
  | pageRegisterWrite (b : Byte)
  /-- DOWNSTREAM_TIMEOUT_WRITE (R17): a data byte at a byte of the downstream timeout. -/
  | downstreamTimeoutWrite (b : Byte)
  /-- COALESCING_PERIOD_WRITE (R166): a data byte at the coalescing period. -/
  | coalescingPeriodWrite (b : Byte)
  /-- SAMPLES_PER_CYCLE_WRITE (R147): a data byte at a byte of samples per cycle. -/
  | samplesPerCycleWrite (b : Byte)
  /-- REGISTER_WRITE (R174): a data byte, judged at the field where the port stands. -/
  | registerWrite (b : Byte)
  /-- FIELD_READ_LATCH (R175): the port sends one byte; `ack` is the controller's answer to it. -/
  | fieldReadLatch (ack : Bool)
deriving DecidableEq, Repr

end Sys2Proof
end

