-- ==== Sys2Proof/Decode.lean ====
section
/-! DEFINITION. The words of the opcode table. No row of it gives a command any bits. -/

namespace Sys2Proof

/-- The command that a word spells by the table's bits: none, since the table numbers no bits for any
of its rows (log 1). -/
def decodeTableWord (_nbits _w : Nat) : Option Instr := none

end Sys2Proof
end

