-- ==== Sys2Proof/Config.lean ====
section
/-! DEFINITION. What the part fixes: its identity and the constants that its rules name; and the free
value of the words that a downstream response owes and does not carry. -/

namespace Sys2Proof.Config

/-- The part code (R176). -/
def partCode : BitVec 16 := 0x0482

/-- The revision (R176). -/
def revision : Byte := 0x01

/-- The device address with ADDR1 and ADDR0 low (R171). -/
def deviceAddressBase : BitVec 7 := 0x58

/-- Requests one requester may have outstanding (R1, R2). -/
def requesterLimit : Nat := 8

/-- Downstream tags of the Memory Port (R1, R13). -/
def tagCount : Nat := 64

/-- Entries of a hold queue (R53, R108). -/
def holdDepth : Nat := 4

/-- The downstream timeout after power-on and RESET_N, in microseconds (R17). -/
def defaultDownTimeout : BitVec 16 := 1000

/-- The quarantine armed at the release of RESET_N, in microseconds (R21). -/
def releaseQuarantine : Nat := 1000

/-- The length of a ring's one-second interval, in microseconds (R140). -/
def secondLength : Nat := 1000000

/-- The length of the ALERT_N release pulse, in microseconds (R167). -/
def pulseLength : Nat := 2

/-- Stamp blocks of the Stamp Pool, and entries in each (R44). -/
def stampBlocks : Nat := 64

/-- Entries of one stamp block (R44). -/
def blockEntries : Nat := 64

/-- Marker mismatches in a row that end the alignment (R96). -/
def failureLimit : Nat := 3

/-- The `n`-th word that an OK response to a take read leaves out: its value is not stated (log 26). -/
opaque freeWord : Nat → Word

end Sys2Proof.Config
end

