-- ==== Sys2Proof/Machine/State.lean ====
section
/-! DEFINITION. The state of the part, as plain data, and the state right after reset. Each structure
names the rule of spec/ that gives its fields. -/

namespace Sys2Proof.Machine

/-- An armed timer: the Timebase value it runs from and its interval in microseconds (R138). -/
structure Timer where
  armedAt : Time
  interval : Nat
deriving DecidableEq, Repr

/-! ## Ring configuration (R23, table 2.1) -/

inductive Kind where
  | message
  | paced
deriving DecidableEq, Repr

/-- A requester filter: one requester, or ANY (R9). -/
inductive Filter where
  | any
  | only (q : Requester)
deriving DecidableEq, Repr

inductive CheckMode where
  | off
  | verify
  | generate
deriving DecidableEq, Repr

inductive AlignMode where
  | off
  | strict
  | auto
deriving DecidableEq, Repr

/-- The configuration record of a ring (R23). -/
structure RingConfig where
  kind : Kind
  putBase : Word
  takeBase : Word
  storageBase : Word
  sizeCode : BitVec 3
  slotCount : BitVec 11
  producer : Filter
  consumer : Filter
  checkMode : CheckMode
  takeCheck : Bool
  alignMode : AlignMode
  marker : BitVec 16
  searchTimeout : BitVec 16
  errorThreshold : BitVec 16
  fillWord : Word
  parkTimeout : BitVec 16
  highMark : BitVec 11
  centre : BitVec 11
  ageLimit : BitVec 16
  cadenceMin : BitVec 24
  cadenceMax : BitVec 24
  absenceLimit : BitVec 4
  guard : Bool
deriving DecidableEq, Repr

/-- The last column of table 2.1. -/
def RingConfig.reset : RingConfig where
  kind := .message
  putBase := 0
  takeBase := 0
  storageBase := 0
  sizeCode := 0
  slotCount := 0
  producer := .any
  consumer := .any
  checkMode := .off
  takeCheck := false
  alignMode := .off
  marker := 0
  searchTimeout := 0
  errorThreshold := 0
  fillWord := 0
  parkTimeout := 0
  highMark := 0
  centre := 0
  ageLimit := 0
  cadenceMin := 0
  cadenceMax := 0
  absenceLimit := 1
  guard := false

/-! ## Ring running fields (R26, table 2.3) -/

inductive RingState where
  | idle
  | running
  | draining
  | aborting
deriving DecidableEq, Repr

inductive PacedState where
  | none
  | priming
  | flowing
  | replaying
deriving DecidableEq, Repr

/-- The results of a ring command, in the order of their codes (tables 2.4 and 11.5). -/
inductive CmdResult where
  | none
  | accepted
  | wrongState
  | slotSize
  | slotCount
  | apertureAlign
  | addressWrap
  | selfOverlap
  | crossOverlap
  | kindTimers
  | pacedMarks
  | checkSetup
  | alignSetup
  | cadenceOrder
  | noStampSpace
deriving DecidableEq, Repr

/-! ## Refusal records (R72, R123, tables 3.5, 6.3 and 11.8) -/

/-- The causes of tables 3.4 and 6.2, in the order of their codes in table 11.8. -/
inductive Cause where
  | aborting
  | wrongRequester
  | mixed
  | wrongDirection
  | unusedOffset
  | partialLanes
  | overlength
  | orphanWord
  | outsideSlot
  | outOfOrder
  | restarted
  | abandoned
  | queueFull
  | ringFull
  | parkExpired
  | consumerAbsent
  | draining
  | downstream
  | checkMismatch
deriving DecidableEq, Repr

/-- A last refusal record; `cause` is none when nothing is recorded. -/
structure RefusalRecord where
  cause : Option Cause
  requester : Requester
  offset : Nat
  time : Time
  valid : Bool
deriving DecidableEq, Repr

def RefusalRecord.reset : RefusalRecord where
  cause := .none
  requester := 0
  offset := 0
  time := 0
  valid := false

/-- What stands at the head of a hold queue: nothing held, a parked entry with its park timer (R66,
R118), or an entry that waits (R58 on the put side, R82 on the take side). -/
inductive HeadHold where
  | clear
  | parked (timer : Timer)
  | waiting
deriving DecidableEq, Repr

/-! ## Put Engine (R51, table 3.3) -/

inductive Phase where
  | none
  | filling
  | committing
deriving DecidableEq, Repr

/-- What a put request carries: words for the data half, or ABANDON (R10). -/
inductive PutBody where
  | words (ws : List Word)
  | abandon
deriving DecidableEq, Repr

/-- A put request as the Put Engine holds it (R52). -/
structure PutReq where
  requester : Requester
  tag : UTag
  offset : Nat
  body : PutBody
deriving DecidableEq, Repr

/-- The U request, with its first offset, which the refusal record of R63 needs (log 12). -/
structure UReq where
  requester : Requester
  tag : UTag
  offset : Nat
deriving DecidableEq, Repr

/-- An entry of the torn-write list (R51). -/
structure TornEntry where
  generation : BitVec 8
  count : Nat
deriving DecidableEq, Repr

/-- An entry of the write list (R51). -/
structure WriteEntry where
  requester : Requester
  tag : UTag
  offset : Nat
  generation : BitVec 8
deriving DecidableEq, Repr

/-- The Put Engine of a ring: the open-slot record of table 3.3, the two lists of R51, the hold queue
of R53 and the last put refusal record of R72. -/
structure PutEngine where
  phase : Phase
  position : Nat
  generation : BitVec 8
  length : BitVec 8
  lastUsed : Nat
  cursor : Nat
  marker : BitVec 16
  sequence : BitVec 8
  crc : BitVec 16
  mismatch : Bool
  downFault : Bool
  outstanding : Nat
  uRequest : Option UReq
  torn : List TornEntry
  writes : List WriteEntry
  hold : List PutReq
  head : HeadHold
  refusal : RefusalRecord
deriving DecidableEq, Repr

def PutEngine.reset : PutEngine where
  phase := .none
  position := 0
  generation := 0
  length := 0
  lastUsed := 0
  cursor := 0
  marker := 0
  sequence := 0
  crc := 0
  mismatch := false
  downFault := false
  outstanding := 0
  uRequest := .none
  torn := []
  writes := []
  hold := []
  head := .clear
  refusal := RefusalRecord.reset

/-! ## Take Engine (R105, R106, R108, R123) -/

/-- A take request as the Take Engine holds it: a data-half read, or RELEASE (R104). -/
structure TakeReq where
  requester : Requester
  tag : UTag
  offset : Nat
  count : Nat
  release : Bool
deriving DecidableEq, Repr

/-- An entry of the read list (R106), with the number of words read from storage (log 12). -/
structure ReadEntry where
  requester : Requester
  tag : UTag
  offset : Nat
  count : Nat
  number : BitVec 8
  coversU : Bool
  words : Nat
deriving DecidableEq, Repr

/-- The take record (table 6.1). -/
structure TakeRecord where
  present : Bool
  position : Nat
  length : BitVec 8
  lastUsed : Nat
  number : BitVec 8
  replay : Bool
  startTime : Time
  cursor : Nat
  crc : BitVec 16
deriving DecidableEq, Repr

def TakeRecord.reset : TakeRecord where
  present := false
  position := 0
  length := 0
  lastUsed := 0
  number := 0
  replay := false
  startTime := 0
  cursor := 0
  crc := 0

/-- The Take Engine of a ring. -/
structure TakeEngine where
  record : TakeRecord
  reads : List ReadEntry
  hold : List TakeReq
  head : HeadHold
  refusal : RefusalRecord
deriving DecidableEq, Repr

def TakeEngine.reset : TakeEngine where
  record := TakeRecord.reset
  reads := []
  hold := []
  head := .clear
  refusal := RefusalRecord.reset

/-! ## Alignment Checker (R87, table 5.1) -/

inductive AlignState where
  | off
  | search
  | confirm
  | aligned
  | bypassed
deriving DecidableEq, Repr

inductive LossCause where
  | none
  | marker
  | rate
deriving DecidableEq, Repr

structure AlignChecker where
  state : AlignState
  candidate : BitVec 8
  expected : BitVec 8
  failures : Nat
  errorCount : Nat
  searchTimer : Option Timer
  lastLoss : LossCause
deriving DecidableEq, Repr

def AlignChecker.reset : AlignChecker where
  state := .off
  candidate := 0
  expected := 0
  failures := 0
  errorCount := 0
  searchTimer := .none
  lastLoss := .none

/-! ## Cadence Monitor (R141, table 8.1) -/

inductive CadenceKind where
  | none
  | early
  | late
deriving DecidableEq, Repr

structure CadenceMonitor where
  lastStart : Option Time
  lateTimer : Option Timer
  lateCount : Nat
  absent : Bool
  lastKind : CadenceKind
deriving DecidableEq, Repr

def CadenceMonitor.reset : CadenceMonitor where
  lastStart := .none
  lateTimer := .none
  lateCount := 0
  absent := false
  lastKind := .none

/-! ## Event Unit, the part of one ring (R161, R168, R169) -/

structure RingEvents where
  flags : BitVec 18
  enables : BitVec 18
  counters : Vector (BitVec 32) 15
  bank : Vector (BitVec 32) 15
deriving DecidableEq, Repr

def RingEvents.reset : RingEvents where
  flags := 0
  enables := 0
  counters := Vector.replicate 15 0
  bank := Vector.replicate 15 0

/-! ## A ring with all its engines -/

structure Ring where
  config : RingConfig
  state : RingState
  t : Nat
  occ : Nat
  retained : Bool
  paced : PacedState
  blocks : List Nat
  command : Byte
  result : CmdResult
  put : PutEngine
  take : TakeEngine
  align : AlignChecker
  cadence : CadenceMonitor
  ageTimer : Option Timer
  secondTimer : Option Timer
  events : RingEvents
deriving DecidableEq, Repr

def Ring.reset : Ring where
  config := RingConfig.reset
  state := .idle
  t := 0
  occ := 0
  retained := false
  paced := .none
  blocks := []
  command := 0
  result := .none
  put := PutEngine.reset
  take := TakeEngine.reset
  align := AlignChecker.reset
  cadence := CadenceMonitor.reset
  ageTimer := .none
  secondTimer := .none
  events := RingEvents.reset

/-! ## Stamp Pool (R45, table 2.9) -/

inductive CheckState where
  | none
  | verified
  | generated
deriving DecidableEq, Repr

/-- An entry of table 2.9, with the marker that R49 has a publish copy into it (log 25). -/
structure Stamp where
  commitTime : Time
  marker : BitVec 16
  sequence : BitVec 8
  length : BitVec 8
  gap : Bool
  check : CheckState
deriving DecidableEq, Repr

/-- The entry that power-on and START leave (R31, R48). -/
def Stamp.zero : Stamp where
  commitTime := 0
  marker := 0
  sequence := 0
  length := 0
  gap := false
  check := .none

/-! ## Upstream Port and Memory Port (R2, R13, table 1.5) -/

/-- An entry of the outstanding-request table, with its request's direction and count (log 12). -/
structure OutEntry where
  requester : Requester
  tag : UTag
  dir : Dir
  count : Nat
deriving DecidableEq, Repr

/-- The block to which a downstream response is delivered (table 1.5). -/
inductive Owner where
  | pass
  | put (r : RingId)
  | take (r : RingId)
deriving DecidableEq, Repr

/-- An entry of the downstream tag table. STALE holds its quarantine, which does not run while RESET_N
is low (R21). A STALE or FREE entry keeps neither owner nor upstream pair nor generation: table 1.5 does
not say what they hold then, and the model drops them (DESIGN CHOICE, log 23). -/
inductive TagEntry where
  | free
  | busy (owner : Owner) (requester : Requester) (tag : UTag) (generation : BitVec 8) (timeout : Timer)
  | stale (quarantine : Option Timer)
deriving DecidableEq, Repr

/-- A request handed to the Memory Port (R13). -/
structure Issue where
  owner : Owner
  requester : Requester
  tag : UTag
  generation : BitVec 8
  dir : Dir
  addr : Word
  count : Nat
  data : List Word
  lanes : List (BitVec 4)
deriving DecidableEq, Repr

/-- A request on the downstream link (section 1.1.1). -/
structure DownRequest where
  tag : DTag
  dir : Dir
  addr : Word
  count : Nat
  data : List Word
  lanes : List (BitVec 4)
deriving DecidableEq, Repr

/-- A response on the upstream link (table 1.2). -/
structure UpResponse where
  requester : Requester
  tag : UTag
  status : Status
  data : List Word
deriving DecidableEq, Repr

/-! ## Survey Unit (R147, R155 to R157) -/

inductive Quantity where
  | occupancy
  | dwell
deriving DecidableEq, Repr

inductive Trigger where
  | timer
  | syncRise
  | syncFall
  | commit
  | take
deriving DecidableEq, Repr

inductive SurveyState where
  | idle
  | armed
  | sampling
deriving DecidableEq, Repr

/-- The setup record (table 9.1). -/
structure SurveySetup where
  source : RingId
  quantity : Quantity
  trigger : Trigger
  samples : BitVec 16
  interval : BitVec 16
  syncDelay : BitVec 16
  holdoff : Bool
  lowLimit : BitVec 16
  highLimit : BitVec 16
  repeats : Bool
deriving DecidableEq, Repr

def SurveySetup.reset : SurveySetup where
  source := 0
  quantity := .occupancy
  trigger := .timer
  samples := 1
  interval := 1
  syncDelay := 0
  holdoff := false
  lowLimit := 0
  highLimit := 0
  repeats := false

/-- The accumulators (R155). -/
structure Accumulators where
  count : Nat
  minimum : Nat
  maximum : Nat
  sum : Nat
  last : Nat
deriving DecidableEq, Repr

def Accumulators.zero : Accumulators := ⟨0, 0, 0, 0, 0⟩

/-- The stored results (R156, R157). -/
structure SurveyResults where
  minimum : Nat
  maximum : Nat
  average : Nat
  last : Nat
  count : Nat
  limitExit : Bool
deriving DecidableEq, Repr

def SurveyResults.zero : SurveyResults := ⟨0, 0, 0, 0, 0, false⟩

structure Survey where
  setup : SurveySetup
  state : SurveyState
  acc : Accumulators
  results : SurveyResults
  delayTimer : Option Timer
  intervalTimer : Option Timer
deriving DecidableEq, Repr

def Survey.reset : Survey where
  setup := SurveySetup.reset
  state := .idle
  acc := Accumulators.zero
  results := SurveyResults.zero
  delayTimer := .none
  intervalTimer := .none

/-! ## ALERT_N driver (R165, table 10.3) -/

inductive Driver where
  | released
  | asserted
  | pulse (ends : Timer)
deriving DecidableEq, Repr

/-! ## Management Port (R171, R174 to R177) -/

/-- The transaction in progress: none that concerns the part, a write that awaits its subaddress byte,
a write, a read (R171). -/
inductive Transaction where
  | none
  | awaitSub
  | write
  | read
deriving DecidableEq, Repr

/-- The staging buffer: the field it is for, by its page and lowest subaddress, and its bytes so far,
first byte first (R174). -/
structure Staging where
  page : Fin 18
  low : Nat
  bytes : List Byte
deriving DecidableEq, Repr

inductive ResetCause where
  | powerOn
  | line
  | soft
deriving DecidableEq, Repr

/-- The results of a global command (R177, table 11.5). -/
inductive GlobalResult where
  | none
  | accepted
  | wrongState
  | badSetup
  | sourceIdle
deriving DecidableEq, Repr

/-- What the port last gave on the serial bus: no answer, an acknowledge bit, or a byte (log 6). -/
inductive Reply where
  | none
  | ack
  | nack
  | sent (b : Byte)
deriving DecidableEq, Repr

structure Port where
  deviceAddress : BitVec 7
  page : Fin 18
  sub : Byte
  staging : Option Staging
  latches : Sparse (BitVec 64)
  transaction : Transaction
  resetCause : ResetCause
  scratch : Word
  command : Byte
  result : GlobalResult
  reply : Reply
deriving DecidableEq, Repr

/-- The port after power-on with the pins presenting `pins` (R171, R179). -/
def Port.reset (pins : BitVec 2) : Port where
  deviceAddress := Config.deviceAddressBase + pins.zeroExtend 7
  page := 0
  sub := 0
  staging := .none
  latches := []
  transaction := .none
  resetCause := .powerOn
  scratch := 0
  command := 0
  result := .none
  reply := .none

/-! ## The part -/

/-- The whole state. `upResponses`, `downRequests` and the port's reply are what the outside has seen
(log 6); `freeCount` counts the free words taken so far (log 26); `pending` is the queue of commands
(log 1). -/
structure State where
  resetN : Bool
  syncLevel : Bool
  timebase : Time
  outstanding : List OutEntry
  tags : Vector TagEntry 64
  issueQueue : List Issue
  downTimeout : BitVec 16
  rings : Vector Ring 16
  stamps : Sparse Stamp
  globalFlags : BitVec 5
  globalEnables : BitVec 5
  period : BitVec 8
  coalTimer : Option Timer
  driver : Driver
  survey : Survey
  port : Port
  upResponses : List UpResponse
  downRequests : List DownRequest
  freeCount : Nat
  pending : List Instr
deriving DecidableEq, Repr

/-- Why the part stops. It never does by the spec: this names a link message that the link never
delivers. -/
inductive Fault where
  /-- Raised by UPSTREAM_REQUEST on a request that has not the form of table 1.1. Safe: no such
  request is ever delivered (log 5). -/
  | requestForm
deriving DecidableEq, Repr

/-- Why a command has no meaning. -/
inductive Refusal where
  /-- Raised by an arm of exec whose command has no meaning yet. Safe. -/
  | notModelled (mnemonic : String)
deriving DecidableEq, Repr

/-- The machine right after power-on (R20, R48, R87, R122, R137, R141, R159, R170, R179), with the pins
low and SYNC low (log 11), nothing seen outside and no command waiting. -/
def State.reset : State where
  resetN := true
  syncLevel := false
  timebase := 0
  outstanding := []
  tags := Vector.replicate 64 .free
  issueQueue := []
  downTimeout := Config.defaultDownTimeout
  rings := Vector.replicate 16 Ring.reset
  stamps := []
  globalFlags := 0
  globalEnables := 0
  period := 0
  coalTimer := .none
  driver := .released
  survey := Survey.reset
  port := Port.reset 0
  upResponses := []
  downRequests := []
  freeCount := 0
  pending := []

end Sys2Proof.Machine
end

