-- ==== Sys2Proof/WellFormed.lean ====
section
/-! DEFINITION. What the link delivers: the form every request and response has (tables 1.1, 1.2). -/

namespace Sys2Proof

/-- A request has the form of table 1.1: a multiple of 4, 1..16 words, and one data word and one lane
mask for each word on a WRITE only. -/
def UpRequest.wellFormed (q : UpRequest) : Bool :=
  q.addr.toNat % 4 == 0 && decide (1 ≤ q.count) && decide (q.count ≤ 16) &&
    match q.dir with
    | .write => q.data.length == q.count && q.lanes.length == q.count
    | .read => q.data.isEmpty && q.lanes.isEmpty

/-- A response carries words only when it is OK, and at most 16 of them (section 1.1.1). No meaning asks
for it: the part goes on after any response (log 26). -/
def responseWellFormed (status : Status) (data : List Word) : Bool :=
  match status with
  | .ok => decide (data.length ≤ 16)
  | .error => data.isEmpty

/-- The commands whose operands have a form to keep; every other command is well formed. -/
def WellFormed : Instr → Bool
  | .upstreamRequest q => q.wellFormed
  | .downstreamResponse _ status data => responseWellFormed status data
  | .powerOn _ | .resetNAssert | .resetNRelease _ | .timebaseTick | .downstreamIssue
  | .responseTimeout _ | .quarantineExpiry _ | .putParkExpiry _ | .takeParkExpiry _
  | .ageExpiry _ | .searchTimerExpiry _ | .oneSecondBoundary _ | .lateTimerExpiry _
  | .entryToIdle _ | .start _ | .stop _ | .abort _ | .flush _ | .snapshot _
  | .softReset | .surveyArm | .surveyDisarm | .surveyIntervalExpiry | .syncEdge _
  | .syncDelayExpiry | .holdoffExpiry | .coalescingTick | .pulseEnd
  | .flagClear _ | .enableWrite _ | .addressByte _ _ | .stopCondition | .subaddressByte _
  | .pageRegisterWrite _ | .downstreamTimeoutWrite _ | .coalescingPeriodWrite _
  | .samplesPerCycleWrite _ | .registerWrite _ | .fieldReadLatch _ => true

end Sys2Proof
end

