-- ==== Sys2Proof/Machine/Ops.lean ====
section
/-! DEFINITION. The named operations over the state: timers, sparse tables, rings and their engines,
stamp entries, the outstanding-request table, the tag table and the issue queue. -/

namespace Sys2Proof.Machine

/-! ## Bits -/

/-- Fields laid side by side, most significant first: (width, value) pairs. -/
def packBits (fields : List (Nat × Nat)) : Nat :=
  fields.foldl (fun acc f => acc * 2 ^ f.1 + f.2 % 2 ^ f.1) 0

/-- A Bool as a bit. -/
def bit (b : Bool) : Nat := if b then 1 else 0

/-! ## Timers (R138) -/

/-- A timer armed at `now` for `interval` microseconds. -/
def armTimer (now : Time) (interval : Nat) : Timer := ⟨now, interval⟩

/-- The time since the arming, counted modulo 2^32, has reached the interval (R138). -/
def Timer.due (now : Time) (t : Timer) : Bool := decide (t.interval ≤ (now - t.armedAt).toNat)

/-- An armed timer that is due; a timer not armed never is. -/
def timerDue (now : Time) : Option Timer → Bool
  | .none => false
  | .some t => t.due now

/-- Time from `start` to `now`, counted modulo 2^32 (R138). -/
def elapsed (now start : Time) : Nat := (now - start).toNat

/-! ## Sparse tables -/

/-- What key `k` reads as; an unlisted key reads as `d`. -/
def sparseGet {α : Type} (d : α) : Sparse α → Nat → α
  | [], _ => d
  | (k', v) :: m, k => if k' = k then v else sparseGet d m k

/-- Sets key `k` to `v`, keeping the canonical form. -/
def sparsePut {α : Type} [DecidableEq α] (d : α) : Sparse α → Nat → α → Sparse α
  | [], k, v => if v = d then [] else [(k, v)]
  | (k', v') :: m, k, v =>
    if k < k' then (if v = d then (k', v') :: m else (k, v) :: (k', v') :: m)
    else if k = k' then (if v = d then m else (k, v) :: m)
    else (k', v') :: sparsePut d m k v

/-- Every key that `p` names reads as the default again. -/
def sparseClear {α : Type} (p : Nat → Bool) (m : Sparse α) : Sparse α :=
  m.filter (fun e => !p e.1)

/-- The canonical form: rising keys, and no entry equal to the default. -/
abbrev SparseWf {α : Type} (d : α) (m : Sparse α) : Prop :=
  m.Pairwise (fun a b => a.1 < b.1) ∧ ∀ e ∈ m, e.2 ≠ d

/-! ## Configuration in numbers (00, Ring quantities) -/

/-- S, the slot size in words: codes 0..6 give 4, 8, 16, 32, 64, 128, 256 (table 2.1). -/
def RingConfig.slotWords (c : RingConfig) : Nat := 4 * 2 ^ c.sizeCode.toNat

/-- N, the slot count. -/
def RingConfig.slots (c : RingConfig) : Nat := c.slotCount.toNat

/-- T: 1 when check mode is not OFF (R49). -/
def RingConfig.trailer (c : RingConfig) : Nat :=
  match c.checkMode with
  | .off => 0
  | .verify | .generate => 1

/-- U = L + T (R49). -/
def RingConfig.lastUsed (c : RingConfig) (length : BitVec 8) : Nat := length.toNat + c.trailer

/-- The storage address of offset `k` of position `p`: storage base plus 4·(p·S + k). -/
def RingConfig.storageAddr (c : RingConfig) (p k : Nat) : Word :=
  c.storageBase + BitVec.ofNat 32 (4 * (p * c.slotWords + k))

/-- Stamp blocks a ring of this configuration needs, ⌈N/64⌉ (R44). -/
def RingConfig.blocksNeeded (c : RingConfig) : Nat :=
  (c.slots + Config.blockEntries - 1) / Config.blockEntries

/-- A filter that is ANY or names the requester (R9). -/
def Filter.passes (f : Filter) (q : Requester) : Bool :=
  match f with
  | .any => true
  | .only p => p == q

/-! ## Positions (R40 to R43) -/

/-- RUNNING, DRAINING or ABORTING (00, Active ring). -/
def RingState.active : RingState → Bool
  | .idle => false
  | .running | .draining | .aborting => true

/-- RUNNING or DRAINING. -/
def RingState.serving : RingState → Bool
  | .running | .draining => true
  | .idle | .aborting => false

/-- The open position, (t+occ) mod N. -/
def Ring.openPosition (x : Ring) : Nat := (x.t + x.occ) % x.config.slots

/-- The retained position, (t−1) mod N (R126). -/
def Ring.retainedPosition (x : Ring) : Nat := (x.t + x.config.slots - 1) % x.config.slots

/-- A slot is FILLING or COMMITTING. -/
def PutEngine.slotOpen (p : PutEngine) : Bool :=
  match p.phase with
  | .none => false
  | .filling | .committing => true

/-- A retained slot is present and is not the in-take slot (R43). -/
def Ring.retainedAlone (x : Ring) : Bool :=
  decide (x.config.kind = .paced) && x.retained &&
    !(x.take.record.present && x.take.record.position == x.retainedPosition)

/-- Free positions as the status word reports them (R43, R126). -/
def Ring.freePositions (x : Ring) : Nat :=
  x.config.slots - x.occ - bit x.take.record.present - bit x.put.slotOpen - bit x.retainedAlone

/-- Room for a new slot: always on a PACED ring; on a MESSAGE ring occ + take + 1 ≤ N (R57). -/
def Ring.hasRoom (x : Ring) : Bool :=
  match x.config.kind with
  | .paced => true
  | .message => decide (x.occ + bit x.take.record.present + 1 ≤ x.config.slots)

/-! ## Access to the rings -/

def State.ring (s : State) (r : RingId) : Ring := s.rings[r]

def State.setRing (s : State) (r : RingId) (x : Ring) : State := { s with rings := s.rings.set r x }

def State.modRing (s : State) (r : RingId) (f : Ring → Ring) : State := s.setRing r (f (s.ring r))

def State.modPut (s : State) (r : RingId) (f : PutEngine → PutEngine) : State :=
  s.modRing r (fun x => { x with put := f x.put })

def State.modTake (s : State) (r : RingId) (f : TakeEngine → TakeEngine) : State :=
  s.modRing r (fun x => { x with take := f x.take })

def State.modAlign (s : State) (r : RingId) (f : AlignChecker → AlignChecker) : State :=
  s.modRing r (fun x => { x with align := f x.align })

def State.modCadence (s : State) (r : RingId) (f : CadenceMonitor → CadenceMonitor) : State :=
  s.modRing r (fun x => { x with cadence := f x.cadence })

def State.modEvents (s : State) (r : RingId) (f : RingEvents → RingEvents) : State :=
  s.modRing r (fun x => { x with events := f x.events })

def State.modSurvey (s : State) (f : Survey → Survey) : State := { s with survey := f s.survey }

def State.modPort (s : State) (f : Port → Port) : State := { s with port := f s.port }

/-! ## Stamp entries (R44, R45) -/

/-- The entry for position `p` is entry (p mod 64) of the block at index ⌊p/64⌋ of the block list. A
position without a block has none (log 19). -/
def Ring.stampIndex (x : Ring) (p : Nat) : Option Nat :=
  (x.blocks[p / Config.blockEntries]?).map
    (fun b => b * Config.blockEntries + p % Config.blockEntries)

def State.stampAt (s : State) (r : RingId) (p : Nat) : Stamp :=
  match (s.ring r).stampIndex p with
  | .some i => sparseGet Stamp.zero s.stamps i
  | .none => Stamp.zero

def State.writeStamp (s : State) (r : RingId) (p : Nat) (e : Stamp) : State :=
  match (s.ring r).stampIndex p with
  | .some i => { s with stamps := sparsePut Stamp.zero s.stamps i e }
  | .none => s

/-- A block held by some ring. -/
def State.blockHeld (s : State) (b : Nat) : Bool :=
  allRings.any (fun r => decide (b ∈ (s.ring r).blocks))

/-- The free blocks, lowest first (R44). -/
def State.freeBlocks (s : State) : List Nat :=
  (List.range Config.stampBlocks).filter (fun b => !s.blockHeld b)

/-! ## The upstream link and the outstanding-request table (R2) -/

/-- The entry holds this requester and tag pair. -/
def OutEntry.isPair (e : OutEntry) (q : Requester) (tag : UTag) : Bool :=
  e.requester == q && e.tag == tag

/-- The number of a requester's outstanding requests (R2). -/
def State.outstandingOf (s : State) (q : Requester) : Nat :=
  s.outstanding.countP (fun e => e.requester == q)

/-- The pair is already held (R3). -/
def State.pairHeld (s : State) (q : Requester) (tag : UTag) : Bool :=
  s.outstanding.any (fun e => e.isPair q tag)

/-- A response on the upstream link that frees no entry (R3). -/
def State.sendUp (s : State) (resp : UpResponse) : State :=
  { s with upResponses := s.upResponses ++ [resp] }

/-- The response to a request: it is returned, and its entry is removed (R2). -/
def State.respond (s : State) (q : Requester) (tag : UTag) (status : Status) (data : List Word) :
    State :=
  { s.sendUp ⟨q, tag, status, data⟩ with
    outstanding := s.outstanding.filter (fun e => !e.isPair q tag) }

def State.respondError (s : State) (q : Requester) (tag : UTag) : State := s.respond q tag .error []

/-- OK with `c` fill words (00, Responses). -/
def State.respondFill (s : State) (r : RingId) (q : Requester) (tag : UTag) (c : Nat) : State :=
  s.respond q tag .ok (List.replicate c (s.ring r).config.fillWord)

/-! ## The Memory Port's queue and tags (R13, R19) -/

/-- A request handed to the Memory Port joins the tail of the issue queue (R13). -/
def State.handDown (s : State) (i : Issue) : State := { s with issueQueue := s.issueQueue ++ [i] }

/-- The ring an owner belongs to. -/
def Owner.ofRing (o : Owner) (r : RingId) : Bool :=
  match o with
  | .pass => false
  | .put q => q == r
  | .take q => q == r

/-- A BUSY entry owned by ring `r`. -/
def TagEntry.busyOf (e : TagEntry) (r : RingId) : Bool :=
  match e with
  | .busy o _ _ _ _ => o.ofRing r
  | .free => false
  | .stale _ => false

/-- The ring's outstanding downstream requests (R19). -/
def State.busyCount (s : State) (r : RingId) : Nat :=
  (allTags.filter (fun i => s.tags[i].busyOf r)).length

/-- The ring has a request waiting in the issue queue (R19). -/
def State.inIssueQueue (s : State) (r : RingId) : Bool :=
  s.issueQueue.any (fun i => i.owner.ofRing r)

/-- Tags that are BUSY or STALE (R1). -/
def State.tagsInUse (s : State) : Nat :=
  (allTags.filter (fun i => s.tags[i] != .free)).length

/-- The lowest-numbered FREE entry (R13). -/
def State.lowestFreeTag (s : State) : Option DTag :=
  allTags.find? (fun i => s.tags[i] == .free)

def State.setTag (s : State) (i : DTag) (e : TagEntry) : State := { s with tags := s.tags.set i e }

end Sys2Proof.Machine
end

