-- ==== Sys2Proof/Machine/Flags.lean ====
section
/-! DEFINITION. The Event Unit (chapter 10): flags, enables, counters, the ring summary and the
ALERT_N driver. -/

namespace Sys2Proof.Machine

/-! ## The flags and the counters -/

/-- The per-ring flags (table 10.1), in the order of their indexes (table 11.7). -/
inductive RingFlag where
  | alignFound
  | alignLost
  | alignBypassed
  | seqGap
  | checkFail
  | takeCheckFail
  | putRefused
  | putFault
  | takeFault
  | slipDrop
  | slipReplay
  | agedOut
  | takeRevoked
  | cadence
  | consumerAbsent
  | downstreamFault
  | guardHit
  | ringIdle
deriving DecidableEq, Repr

/-- Table 11.7. -/
def RingFlag.index : RingFlag → Nat
  | .alignFound => 0
  | .alignLost => 1
  | .alignBypassed => 2
  | .seqGap => 3
  | .checkFail => 4
  | .takeCheckFail => 5
  | .putRefused => 6
  | .putFault => 7
  | .takeFault => 8
  | .slipDrop => 9
  | .slipReplay => 10
  | .agedOut => 11
  | .takeRevoked => 12
  | .cadence => 13
  | .consumerAbsent => 14
  | .downstreamFault => 15
  | .guardHit => 16
  | .ringIdle => 17

/-- The class column of table 10.1: URGENT, else NOTICE. -/
def RingFlag.urgent : RingFlag → Bool
  | .alignLost | .alignBypassed | .checkFail | .takeCheckFail | .putFault | .takeFault
  | .consumerAbsent | .downstreamFault | .guardHit => true
  | .alignFound | .seqGap | .putRefused | .slipDrop | .slipReplay | .agedOut | .takeRevoked
  | .cadence | .ringIdle => false

def RingFlag.mask (f : RingFlag) : BitVec 18 := 1#18 <<< f.index

def RingFlag.all : List RingFlag :=
  [.alignFound, .alignLost, .alignBypassed, .seqGap, .checkFail, .takeCheckFail, .putRefused,
   .putFault, .takeFault, .slipDrop, .slipReplay, .agedOut, .takeRevoked, .cadence,
   .consumerAbsent, .downstreamFault, .guardHit, .ringIdle]

/-- The bits of the URGENT flags of a ring. -/
def ringUrgentMask : BitVec 18 :=
  RingFlag.all.foldl (fun m f => if f.urgent then m ||| f.mask else m) 0

/-- The global flags (table 10.2). -/
inductive GlobalFlag where
  | tagClash
  | straddle
  | surveySourceLost
  | surveyLimit
  | surveyDone
deriving DecidableEq, Repr

/-- The bits of table 11.3. -/
def GlobalFlag.index : GlobalFlag → Nat
  | .tagClash => 0
  | .straddle => 1
  | .surveySourceLost => 2
  | .surveyLimit => 3
  | .surveyDone => 4

/-- The class column of table 10.2. -/
def GlobalFlag.urgent : GlobalFlag → Bool
  | .tagClash | .straddle | .surveyLimit => true
  | .surveySourceLost | .surveyDone => false

def GlobalFlag.mask (f : GlobalFlag) : BitVec 5 := 1#5 <<< f.index

def GlobalFlag.all : List GlobalFlag :=
  [.tagClash, .straddle, .surveySourceLost, .surveyLimit, .surveyDone]

def globalUrgentMask : BitVec 5 :=
  GlobalFlag.all.foldl (fun m f => if f.urgent then m ||| f.mask else m) 0

/-- The counters of a ring (table 10.4). -/
inductive Counter where
  | published
  | droppedCheck
  | droppedAlign
  | seqGaps
  | putRefused
  | putFaults
  | takeFaults
  | takeCheckErrors
  | slipDropped
  | replays
  | agedOut
  | cadenceEarly
  | cadenceLate
  | revoked
  | downstreamFaults
deriving DecidableEq, Repr

/-- The index column of table 10.4. -/
def Counter.index : Counter → Fin 15
  | .published => 0
  | .droppedCheck => 1
  | .droppedAlign => 2
  | .seqGaps => 3
  | .putRefused => 4
  | .putFaults => 5
  | .takeFaults => 6
  | .takeCheckErrors => 7
  | .slipDropped => 8
  | .replays => 9
  | .agedOut => 10
  | .cadenceEarly => 11
  | .cadenceLate => 12
  | .revoked => 13
  | .downstreamFaults => 14

/-! ## Pending flags (R161, R164) -/

def RingEvents.pending (e : RingEvents) : BitVec 18 := e.flags &&& e.enables

def State.globalPending (s : State) : BitVec 5 := s.globalFlags &&& s.globalEnables

/-- Some flag of either class is enabled-pending. -/
def State.anyPending (s : State) : Bool :=
  s.globalPending != 0 || allRings.any (fun r => (s.ring r).events.pending != 0)

/-- Some NOTICE flag is enabled-pending. -/
def State.noticePending (s : State) : Bool :=
  (s.globalPending &&& ~~~globalUrgentMask) != 0 ||
    allRings.any (fun r => ((s.ring r).events.pending &&& ~~~ringUrgentMask) != 0)

/-- The ring summary: bit r for ring r (R164). -/
def State.ringSummary (s : State) : Nat :=
  (allRings.map (fun r => bit ((s.ring r).events.pending != 0) * 2 ^ r.val)).sum

/-! ## The ALERT_N driver (R165 to R167) -/

/-- The driver once an URGENT flag, a NOTICE flag, or both have become enabled-pending: an URGENT one
asserts the line at once; a NOTICE one does so only from RELEASED with a coalescing period of 0. -/
def State.driverOnNew (s : State) (urgent notice : Bool) : Driver :=
  if urgent then .asserted
  else if notice && decide (s.driver = .released) && decide (s.period = 0) then .asserted
  else s.driver

/-- No flag enabled-pending any longer: RELEASED at once (R165). -/
def State.releaseIfNone (s : State) : State :=
  if s.anyPending then s else { s with driver := .released }

/-- What a clear event does to the driver (R165, R167). -/
def State.afterClear (s : State) : State :=
  if s.anyPending then
    match s.driver with
    | .released => s
    | .asserted | .pulse _ => { s with driver := .pulse (armTimer s.timebase Config.pulseLength) }
  else { s with driver := .released }

/-! ## Reports (R162) -/

/-- A report of a per-ring flag. -/
def State.raise (s : State) (r : RingId) (f : RingFlag) : State :=
  let e := (s.ring r).events
  let fresh := (e.flags &&& f.mask) == 0 && (e.enables &&& f.mask) != 0
  { s.modEvents r (fun e => { e with flags := e.flags ||| f.mask }) with
    driver := s.driverOnNew (fresh && f.urgent) (fresh && !f.urgent) }

/-- A report of a global flag. -/
def State.raiseGlobal (s : State) (f : GlobalFlag) : State :=
  let fresh := (s.globalFlags &&& f.mask) == 0 && (s.globalEnables &&& f.mask) != 0
  { s with
    globalFlags := s.globalFlags ||| f.mask
    driver := s.driverOnNew (fresh && f.urgent) (fresh && !f.urgent) }

/-- A counter's value after an advance by `n`: it stops at 0xFFFFFFFF (R168). -/
def advanceCounter (c : BitVec 32) (n : Nat) : BitVec 32 :=
  BitVec.ofNat 32 (min (c.toNat + n) 0xFFFFFFFF)

/-- An advance of a counter (R168). -/
def State.bump (s : State) (r : RingId) (c : Counter) (n : Nat) : State :=
  s.modEvents r (fun e =>
    { e with counters := e.counters.set c.index (advanceCounter e.counters[c.index] n) })

/-! ## Clears and enables (R163, R164) -/

/-- A clear event of a ring's flags. -/
def State.clearRingFlags (s : State) (r : RingId) (mask : BitVec 18) : State :=
  (s.modEvents r (fun e => { e with flags := e.flags &&& ~~~mask })).afterClear

/-- A clear event of the global flags. -/
def State.clearGlobalFlags (s : State) (mask : BitVec 5) : State :=
  ({ s with globalFlags := s.globalFlags &&& ~~~mask } : State).afterClear

/-- An enable write to a ring's enables: flags may become or cease to be enabled-pending. -/
def State.setRingEnables (s : State) (r : RingId) (en : BitVec 18) : State :=
  let e := (s.ring r).events
  let fresh := (e.flags &&& en) &&& ~~~e.pending
  let s' := s.modEvents r (fun e => { e with enables := en })
  ({ s' with
    driver := s.driverOnNew ((fresh &&& ringUrgentMask) != 0)
      ((fresh &&& ~~~ringUrgentMask) != 0) } : State).releaseIfNone

/-- An enable write to the global enables. -/
def State.setGlobalEnables (s : State) (en : BitVec 5) : State :=
  let fresh := (s.globalFlags &&& en) &&& ~~~s.globalPending
  ({ s with
    globalEnables := en
    driver := s.driverOnNew ((fresh &&& globalUrgentMask) != 0)
      ((fresh &&& ~~~globalUrgentMask) != 0) } : State).releaseIfNone

/-! ## Refusal records (R12, R71, R72, R123) -/

/-- Table 3.4, the flag of a put cause. -/
def Cause.putFlag : Cause → RingFlag
  | .queueFull | .ringFull | .parkExpired | .consumerAbsent | .draining => .putRefused
  | .downstream => .downstreamFault
  | .checkMismatch => .checkFail
  | .aborting | .wrongRequester | .mixed | .wrongDirection | .unusedOffset | .partialLanes
  | .overlength | .orphanWord | .outsideSlot | .outOfOrder | .restarted | .abandoned => .putFault

/-- Table 3.4, the counter of a put cause. -/
def Cause.putCounter : Cause → Counter
  | .queueFull | .ringFull | .parkExpired | .consumerAbsent | .draining => .putRefused
  | .downstream => .downstreamFaults
  | .checkMismatch => .droppedCheck
  | .aborting | .wrongRequester | .mixed | .wrongDirection | .unusedOffset | .partialLanes
  | .overlength | .orphanWord | .outsideSlot | .outOfOrder | .restarted | .abandoned => .putFaults

/-- Table 6.2, the flag of a take cause. -/
def Cause.takeFlag : Cause → RingFlag
  | .checkMismatch => .takeCheckFail
  | .downstream => .downstreamFault
  | .aborting | .wrongRequester | .mixed | .wrongDirection | .unusedOffset | .partialLanes
  | .overlength | .orphanWord | .outsideSlot | .outOfOrder | .restarted | .abandoned
  | .queueFull | .ringFull | .parkExpired | .consumerAbsent | .draining => .takeFault

/-- Table 6.2, the counter of a take cause. -/
def Cause.takeCounter : Cause → Counter
  | .checkMismatch => .takeCheckErrors
  | .downstream => .downstreamFaults
  | .aborting | .wrongRequester | .mixed | .wrongDirection | .unusedOffset | .partialLanes
  | .overlength | .orphanWord | .outsideSlot | .outOfOrder | .restarted | .abandoned
  | .queueFull | .ringFull | .parkExpired | .consumerAbsent | .draining => .takeFaults

/-- One occurrence of a put cause: record, flag and counter (R71, R72). -/
def State.recordPut (s : State) (r : RingId) (c : Cause) (q : Requester) (offset : Nat) : State :=
  ((s.modPut r (fun p => { p with refusal := ⟨.some c, q, offset, s.timebase, true⟩ })).raise r
    c.putFlag).bump r c.putCounter 1

/-- One occurrence of a take cause: record, flag and counter (R123). -/
def State.recordTake (s : State) (r : RingId) (c : Cause) (q : Requester) (offset : Nat) : State :=
  ((s.modTake r (fun p => { p with refusal := ⟨.some c, q, offset, s.timebase, true⟩ })).raise r
    c.takeFlag).bump r c.takeCounter 1

/-! ## Resets of the Event Unit (R170) -/

/-- The zeroing event of SOFT_RESET: flags, live counters and banks, not the enables. -/
def RingEvents.zeroed (e : RingEvents) : RingEvents := { RingEvents.reset with enables := e.enables }

end Sys2Proof.Machine
end

