-- ==== Sys2Proof/Machine/Align.lean ====
section
/-! DEFINITION. The Alignment Checker (chapter 5): the decision at commit completion and the events
that change the checker by themselves. -/

namespace Sys2Proof.Machine

/-- The three decisions of R89. -/
inductive Decision where
  | publish
  | publishGap
  | drop
deriving DecidableEq, Repr

/-- What the checker answers for one slot: the decision, its state after, and the flag it raises
besides SEQ_GAP. -/
structure Judgement where
  decision : Decision
  after : AlignChecker
  flag : Option RingFlag
deriving DecidableEq, Repr

/-- The search timer at an entry to SEARCH: armed on an AUTO ring only (R98). -/
def RingConfig.searchTimerAt (c : RingConfig) (now : Time) : Option Timer :=
  match c.alignMode with
  | .auto => .some (armTimer now (c.searchTimeout.toNat * 1000))
  | .off | .strict => .none

/-- A loss of alignment (R97). -/
def AlignChecker.lose (a : AlignChecker) (c : RingConfig) (now : Time) (cause : LossCause) :
    AlignChecker :=
  { a with
    state := .search
    lastLoss := cause
    failures := 0
    errorCount := 0
    searchTimer := c.searchTimerAt now }

/-- A slot in SEARCH (R92). -/
def AlignChecker.judgeSearch (a : AlignChecker) (markerOk : Bool) (sq : BitVec 8) : Judgement :=
  if markerOk then ⟨.drop, { a with state := .confirm, candidate := sq }, .none⟩
  else ⟨.drop, a, .none⟩

/-- A slot in CONFIRM (R93, R94). -/
def AlignChecker.judgeConfirm (a : AlignChecker) (c : RingConfig) (now : Time) (markerOk : Bool)
    (sq : BitVec 8) : Judgement :=
  if markerOk && sq == a.candidate + 1 then
    ⟨.publish,
      { a with
        state := .aligned
        expected := a.candidate + 2
        failures := 0
        errorCount := 0
        searchTimer := .none },
      .some .alignFound⟩
  else
    AlignChecker.judgeSearch { a with state := .search, searchTimer := c.searchTimerAt now } markerOk
      sq

/-- A slot in ALIGNED (R95, R96). -/
def AlignChecker.judgeAligned (a : AlignChecker) (c : RingConfig) (now : Time) (markerOk : Bool)
    (sq : BitVec 8) : Judgement :=
  if markerOk then
    ⟨if sq = a.expected then .publish else .publishGap,
      { a with expected := sq + 1, failures := 0 }, .none⟩
  else
    let failed := { a with failures := a.failures + 1, errorCount := a.errorCount + 1 }
    if Config.failureLimit ≤ failed.failures then
      ⟨.drop, failed.lose c now .marker, .some .alignLost⟩
    else if c.errorThreshold.toNat < failed.errorCount then
      ⟨.drop, failed.lose c now .rate, .some .alignLost⟩
    else ⟨.drop, failed, .none⟩

/-- The decision for a committed slot with this marker and sequence (R89 to R100). -/
def AlignChecker.judge (a : AlignChecker) (c : RingConfig) (now : Time) (marker : BitVec 16)
    (sq : BitVec 8) : Judgement :=
  let markerOk := marker == c.marker
  match a.state with
  | .off | .bypassed => ⟨.publish, a, .none⟩
  | .search => a.judgeSearch markerOk sq
  | .confirm => a.judgeConfirm c now markerOk sq
  | .aligned => a.judgeAligned c now markerOk sq

/-- Raises the flag, if any. -/
def State.raiseOpt (s : State) (r : RingId) : Option RingFlag → State
  | .none => s
  | .some f => s.raise r f

/-- A check mismatch report (R77, R95): it counts in ALIGNED only, and may end the alignment. -/
def State.alignCheckReport (s : State) (r : RingId) : State :=
  let x := s.ring r
  let a := x.align
  match a.state with
  | .aligned =>
    let counted := { a with errorCount := a.errorCount + 1 }
    if x.config.errorThreshold.toNat < counted.errorCount then
      (s.modAlign r (fun _ => counted.lose x.config s.timebase .rate)).raise r .alignLost
    else s.modAlign r (fun _ => counted)
  | .off | .search | .confirm | .bypassed => s

/-- The search timer has run out in SEARCH or CONFIRM (R99). -/
def State.alignBypass (s : State) (r : RingId) : State :=
  (s.modAlign r (fun a => { a with state := .bypassed, searchTimer := .none })).raise r .alignBypassed

end Sys2Proof.Machine
end

