-- ==== Sys2Proof/Machine/Cadence.lean ====
section
/-! DEFINITION. The Cadence Monitor (section 8.2): what a take start does, and the count of a late
expiry. The refusal of a parked header at a declaration stands in Machine/Timers.lean. -/

namespace Sys2Proof.Machine

/-- The late timer from `now`: armed when cadence max is above 0 (R142 step 4). -/
def RingConfig.lateTimer (c : RingConfig) (now : Time) : Option Timer :=
  if c.cadenceMax = 0 then .none else .some (armTimer now c.cadenceMax.toNat)

/-- A take start comes less than cadence min after the one before (R142 step 1). -/
def Ring.earlyAt (x : Ring) (now : Time) : Bool :=
  match x.cadence.lastStart with
  | .none => false
  | .some last => decide (elapsed now last < x.config.cadenceMin.toNat)

/-- The monitor's fields after a reported take start (R142 steps 1 to 4). -/
def Ring.cadenceAfterStart (x : Ring) (now : Time) : CadenceMonitor where
  lastStart := .some now
  lateTimer := x.config.lateTimer now
  lateCount := 0
  absent := false
  lastKind := if x.earlyAt now then .early else x.cadence.lastKind

/-- A reported take start (R142). -/
def State.cadenceStart (s : State) (r : RingId) : State :=
  let x := s.ring r
  let s' := s.modCadence r (fun _ => x.cadenceAfterStart s.timebase)
  if x.earlyAt s.timebase then (s'.raise r .cadence).bump r .cadenceEarly 1 else s'

/-- The consecutive-late count after a counted expiry: it stays at the absence limit (R143). -/
def Ring.lateCountNext (x : Ring) : Nat :=
  if x.cadence.lateCount = x.config.absenceLimit.toNat then x.cadence.lateCount
  else x.cadence.lateCount + 1

/-- A counted late expiry brings the count to the absence limit with the absent flag at no, and so
declares the consumer absent (R144). -/
def Ring.declaresAbsent (x : Ring) : Bool :=
  decide (x.cadence.lateCount ≠ x.config.absenceLimit.toNat) &&
    decide (x.lateCountNext = x.config.absenceLimit.toNat) && !x.cadence.absent

/-- The Cadence Monitor's part of a late expiry, the timer's re-arming included (R143, R144). -/
def State.cadenceLate (s : State) (r : RingId) : State :=
  let x := s.ring r
  let s := s.modCadence r (fun c => { c with lateTimer := x.config.lateTimer s.timebase })
  if x.occ = 0 then s
  else
    let s := s.modCadence r (fun c => { c with lateCount := x.lateCountNext, lastKind := .late })
    let s := (s.raise r .cadence).bump r .cadenceLate 1
    if x.declaresAbsent then
      (s.modCadence r (fun c => { c with absent := true })).raise r .consumerAbsent
    else s

end Sys2Proof.Machine
end

