-- ==== Sys2Proof/Machine/Check.lean ====
section
/-! DEFINITION. Header fields (R49) and the check word (R74). -/

namespace Sys2Proof.Machine

/-! ## The header (table 3.1) -/

/-- Bits 31..16. -/
def headerMarker (h : Word) : BitVec 16 := h.extractLsb' 16 16

/-- Bits 15..8. -/
def headerSequence (h : Word) : BitVec 8 := h.extractLsb' 8 8

/-- Bits 7..0. -/
def headerLength (h : Word) : BitVec 8 := h.extractLsb' 0 8

/-- The check word a trailer carries, bits 15..0. -/
def trailerCheck (w : Word) : BitVec 16 := w.extractLsb' 0 16

/-! ## The check word -/

/-- One shift of R74's step 2. -/
def crcShift (c : BitVec 16) : BitVec 16 := if c.msb then (c <<< 1) ^^^ 0x1021 else c <<< 1

/-- One byte of R74: the exclusive-or into the upper half, then eight shifts. -/
def crcByte (c : BitVec 16) (b : BitVec 8) : BitVec 16 :=
  let c := c ^^^ (b.zeroExtend 16 <<< 8)
  crcShift (crcShift (crcShift (crcShift (crcShift (crcShift (crcShift (crcShift c)))))))

/-- One word of R74, most significant byte first. -/
def crcWord (c : BitVec 16) (w : Word) : BitVec 16 :=
  crcByte (crcByte (crcByte (crcByte c (w.extractLsb' 24 8)) (w.extractLsb' 16 8))
    (w.extractLsb' 8 8)) (w.extractLsb' 0 8)

/-- The words run through the register in offset order. -/
def crcWords (c : BitVec 16) (ws : List Word) : BitVec 16 := ws.foldl crcWord c

/-- The register before the first byte (R74). -/
def crcStart : BitVec 16 := 0xFFFF

/-- The check state a publish writes (R79). -/
def CheckMode.stampState : CheckMode → CheckState
  | .off => .none
  | .verify => .verified
  | .generate => .generated

end Sys2Proof.Machine
end

