-- ==== Sys2Proof/Machine/Pacing.lean ====
section
/-! DEFINITION. Departures (R42), age expiry (R131, R132), drop slips (R125), the paced take decision
(R127, R129) and the revocation of a take (R120). -/

namespace Sys2Proof.Machine

/-! ## Departures -/

/-- `n` departures of the head slot, without the arming of the age-expiry timer (R42). On a PACED ring
the last one departed is the retained slot. -/
def Ring.departN (x : Ring) (n : Nat) : Ring :=
  { x with
    t := (x.t + n) % x.config.slots
    occ := x.occ - n
    retained := x.retained || (decide (x.config.kind = .paced) && decide (0 < n)) }

/-- All published slots depart at once (R34, R37). -/
def Ring.departAll (x : Ring) : Ring := x.departN x.occ

/-! ## Age expiry -/

/-- The age-expiry timer runs on this ring (R131). -/
def Ring.agesOut (x : Ring) : Bool :=
  decide (x.config.kind = .paced) && decide (x.config.ageLimit ≠ 0)

/-- The timer of a head committed at `commit`: its expiry is the commit time plus the age limit. -/
def RingConfig.ageTimerFrom (c : RingConfig) (commit : Time) : Timer := armTimer commit c.ageLimit.toNat

/-- One age expiry of the head slot, without the arming for the next head (R132). -/
def State.ageOutHead (s : State) (r : RingId) : State :=
  ((s.modRing r (fun x => x.departN 1)).raise r .agedOut).bump r .agedOut 1

/-- Arms the age-expiry timer for the head as it stands; a head already past its limit departs at once
(R131). `fuel` bounds the heads looked at. -/
def State.armAge : Nat → State → RingId → State
  | 0, s, r => s.modRing r (fun x => { x with ageTimer := .none })
  | fuel + 1, s, r =>
    let x := s.ring r
    if x.occ = 0 ∨ !x.agesOut then s.modRing r (fun x => { x with ageTimer := .none })
    else
      let timer := x.config.ageTimerFrom (s.stampAt r x.t).commitTime
      if timer.due s.timebase then State.armAge fuel (s.ageOutHead r) r
      else s.modRing r (fun x => { x with ageTimer := .some timer })

/-- The age-expiry timer after the head has changed (R131). -/
def State.rearmAge (s : State) (r : RingId) : State := State.armAge ((s.ring r).occ + 1) s r

/-! ## Drop slips (R125) -/

/-- Slots a slip drops: none unless the ring is PACED and occ is above H. -/
def Ring.slipCount (x : Ring) : Nat :=
  if x.config.kind = .paced ∧ x.config.highMark.toNat < x.occ then x.occ - x.config.centre.toNat
  else 0

/-- The drop slip of a publish, its flag and counter, without the arming of the timer. -/
def State.dropSlip (s : State) (r : RingId) : State :=
  let n := (s.ring r).slipCount
  if n = 0 then s
  else ((s.modRing r (fun x => x.departN n)).raise r .slipDrop).bump r .slipDropped n

/-! ## The paced take decision -/

inductive PacedChoice where
  | head
  | replay
  | fill
deriving DecidableEq, Repr

/-- Tables of R127 (RUNNING) and R129 (DRAINING). -/
def Ring.pacedChoice (x : Ring) : PacedChoice :=
  if x.state = .draining then (if x.occ = 0 then .fill else .head)
  else
    match x.paced with
    | .priming => if x.occ < x.config.centre.toNat then .fill else .head
    | .flowing => if x.occ = 0 then .replay else .head
    | .replaying => if x.occ < x.config.centre.toNat then .replay else .head
    | .none => .fill

/-! ## Revocation (R120) -/

/-- Clearing the take record: every field but the take number (R105). -/
def TakeRecord.cleared (t : TakeRecord) : TakeRecord := { TakeRecord.reset with number := t.number }

/-- The take record is cleared (R115, R120). -/
def State.clearTake (s : State) (r : RingId) : State :=
  s.modTake r (fun t => { t with record := t.record.cleared })

/-- A revocation of the take, if one is present; its report to the Put Engine is the caller's. -/
def State.revokeTake (s : State) (r : RingId) : State :=
  if (s.ring r).take.record.present then
    ((s.clearTake r).raise r .takeRevoked).bump r .revoked 1
  else s

end Sys2Proof.Machine
end

