-- ==== Sys2Proof/Machine/PutEngine.lean ====
section
/-! DEFINITION. The Put Engine (chapter 3) up to the commit: the hold queue, the judging of bursts,
headers and words, the acceptance of words, ABANDON, parking and the end of a park. -/

namespace Sys2Proof.Machine

/-- What the judging of a request gives: the state after, and whether the request stays at the head of
the queue (parked or waiting) or leaves it. -/
abbrev Judged := State × Option HeadHold

/-! ## Refusals and tears -/

/-- A put refusal: ERROR, with the record, flag and counter of its cause (R71, R72). -/
def State.refusePut (s : State) (r : RingId) (q : PutReq) (c : Cause) : State :=
  (s.recordPut r c q.requester q.offset).respondError q.requester q.tag

/-- The open-slot record after a tear: its generation joins the tail of the torn-write list if it has
writes outstanding (R56, R65, R73; log 13). -/
def PutEngine.torned (p : PutEngine) : PutEngine :=
  { p with
    phase := .none
    outstanding := 0
    torn := if p.outstanding = 0 then p.torn else p.torn ++ [⟨p.generation, p.outstanding⟩] }

/-- The tear of the FILLING slot by a new header, recorded as RESTARTED (R56). -/
def State.restartTear (s : State) (r : RingId) (q : Requester) : State :=
  (s.modPut r PutEngine.torned).recordPut r .restarted q 0

/-! ## Taking a header (R58, R133) -/

/-- The generation a header would advance to. -/
def PutEngine.nextGeneration (p : PutEngine) : BitVec 8 := p.generation + 1

/-- That generation is still held by the torn-write list. -/
def PutEngine.generationHeld (p : PutEngine) : Bool :=
  p.torn.any (fun e => e.generation == p.nextGeneration)

/-- On a PACED ring the take stands at the position the header opens (R133). -/
def Ring.collides (x : Ring) : Bool :=
  decide (x.config.kind = .paced) && x.take.record.present &&
    x.take.record.position == x.openPosition

/-- The open-slot record as a header sets it (table of R58). -/
def Ring.putOpened (x : Ring) (header : Word) : PutEngine :=
  { x.put with
    phase := .filling
    position := x.openPosition
    generation := x.put.nextGeneration
    length := headerLength header
    lastUsed := x.config.lastUsed (headerLength header)
    cursor := 1
    marker := headerMarker header
    sequence := headerSequence header
    crc := crcStart
    mismatch := false
    downFault := false
    outstanding := 0
    uRequest := .none }

/-- A collision revokes the take before the record is set (R133). -/
def State.collide (s : State) (r : RingId) : State :=
  if (s.ring r).collides then s.revokeTake r else s

/-- A header is taken and opens a slot; `fresh` says that it restarts none. -/
def State.takeHeader (s : State) (r : RingId) (header : Word) (fresh : Bool) : State :=
  let s := if fresh then s.collide r else s
  s.modRing r (fun x => { x with put := x.putOpened header })

/-! ## Accepting words (R60, R61, R75, R76, R78) -/

/-- A request at offset `k` of `c` words contains the word at U. -/
def PutEngine.carriesU (p : PutEngine) (k c : Nat) : Bool :=
  decide (k ≤ p.lastUsed) && decide (p.lastUsed < k + c)

/-- The running put CRC after the words at offsets 0..L of a request (R75). -/
def Ring.putCrcAfter (x : Ring) (k : Nat) (ws : List Word) : BitVec 16 :=
  match x.config.checkMode with
  | .off => x.put.crc
  | .verify | .generate => crcWords x.put.crc (ws.take (x.put.length.toNat + 1 - k))

/-- The data as handed to the Memory Port: under GENERATE the word at U is the check word (R78). -/
def Ring.putDataOut (x : Ring) (k : Nat) (ws : List Word) : List Word :=
  match x.config.checkMode with
  | .off | .verify => ws
  | .generate =>
    if x.put.carriesU k ws.length then
      ws.set (x.put.lastUsed - k) ((x.putCrcAfter k ws).zeroExtend 32)
    else ws

/-- The trailer accepted under VERIFY disagrees with the running put CRC (R76). -/
def Ring.trailerDiffers (x : Ring) (k : Nat) (ws : List Word) : Bool :=
  match x.config.checkMode with
  | .off | .generate => false
  | .verify =>
    x.put.carriesU k ws.length &&
      trailerCheck (ws.getD (x.put.lastUsed - k) 0) != x.putCrcAfter k ws

/-- The downstream write of an admitted request (R60). -/
def Ring.putIssue (x : Ring) (r : RingId) (q : PutReq) (ws : List Word) : Issue where
  owner := .put r
  requester := q.requester
  tag := q.tag
  generation := x.put.generation
  dir := .write
  addr := x.config.storageAddr x.put.position q.offset
  count := ws.length
  data := x.putDataOut q.offset ws
  lanes := List.replicate ws.length 0xF

/-- The Put Engine after the acceptance of a request's words (R60). -/
def Ring.putAccepted (x : Ring) (q : PutReq) (ws : List Word) : PutEngine :=
  let u := x.put.carriesU q.offset ws.length
  { x.put with
    writes := x.put.writes ++ [⟨q.requester, q.tag, q.offset, x.put.generation⟩]
    cursor := q.offset + ws.length
    crc := x.putCrcAfter q.offset ws
    mismatch := x.put.mismatch || x.trailerDiffers q.offset ws
    outstanding := x.put.outstanding + 1
    phase := if u then .committing else x.put.phase
    uRequest := if u then .some ⟨q.requester, q.tag, q.offset⟩ else x.put.uRequest }

/-- The words of an admitted request are accepted together. -/
def State.acceptWords (s : State) (r : RingId) (q : PutReq) (ws : List Word) : State :=
  let x := s.ring r
  (s.modRing r (fun y => { y with put := x.putAccepted q ws })).handDown (x.putIssue r q ws)

/-! ## Judging (R54 to R59, R65) -/

/-- The first word of a request above offset 0 that fails, by R59. -/
def PutEngine.wordsCause (p : PutEngine) (k c : Nat) : Option Cause :=
  if p.phase ≠ .filling then .some .orphanWord
  else if p.lastUsed < k then .some .outsideSlot
  else if k ≠ p.cursor then .some .outOfOrder
  else if p.lastUsed < k + c - 1 then .some .outsideSlot
  else .none

/-- The first test a header burst of `c` words fails: R55, then R59 for the words behind it. -/
def Ring.headerCause (x : Ring) (header : Word) (c : Nat) : Option Cause :=
  let length := (headerLength header).toNat
  if x.config.slotWords < 1 + length + x.config.trailer then .some .overlength
  else if x.state = .draining then .some .draining
  else if length + x.config.trailer < c - 1 then .some .outsideSlot
  else .none

/-- A header that finds no room (R57). -/
def State.judgeNoRoom (s : State) (r : RingId) (q : PutReq) : Judged :=
  let x := s.ring r
  if x.cadence.absent then (s.refusePut r q .consumerAbsent, .none)
  else if x.config.parkTimeout = 0 then (s.refusePut r q .ringFull, .none)
  else (s, .some (.parked (armTimer s.timebase x.config.parkTimeout.toNat)))

/-- A header burst that has passed R55 and the word tests (R56, R57, R58). -/
def State.judgeHeaderPassed (s : State) (r : RingId) (q : PutReq) (ws : List Word) : Judged :=
  let x := s.ring r
  let header := ws.headD 0
  if x.put.phase = .filling then
    if x.put.generationHeld then (s, .some .waiting)
    else (((s.restartTear r q.requester).takeHeader r header false).acceptWords r q ws, .none)
  else if !x.hasRoom then s.judgeNoRoom r q
  else if x.put.generationHeld then (s, .some .waiting)
  else ((s.takeHeader r header true).acceptWords r q ws, .none)

/-- A burst for the data half (R54). -/
def State.judgeBurst (s : State) (r : RingId) (q : PutReq) (ws : List Word) : Judged :=
  let x := s.ring r
  if q.offset = 0 then
    match x.headerCause (ws.headD 0) ws.length with
    | .some c => (s.refusePut r q c, .none)
    | .none => s.judgeHeaderPassed r q ws
  else
    match x.put.wordsCause q.offset ws.length with
    | .some c => (s.refusePut r q c, .none)
    | .none => (s.acceptWords r q ws, .none)

/-- ABANDON when judged (R65). -/
def State.judgeAbandon (s : State) (r : RingId) (q : PutReq) : State :=
  let s :=
    if (s.ring r).put.phase = .filling then
      (s.modPut r PutEngine.torned).recordPut r .abandoned q.requester q.offset
    else s
  s.respond q.requester q.tag .ok []

/-- The judging of one put request. -/
def State.judgePut (s : State) (r : RingId) (q : PutReq) : Judged :=
  match q.body with
  | .words ws => s.judgeBurst r q ws
  | .abandon => (s.judgeAbandon r q, .none)

/-! ## The hold queue (R52, R53) -/

/-- Judging goes on down the queue; each entry judged once, `fuel` of them at most (R52). -/
def State.putLoop : Nat → State → RingId → State
  | 0, s, _ => s
  | fuel + 1, s, r =>
    let p := (s.ring r).put
    match p.hold with
    | [] => s
    | q :: _ =>
      if p.phase = .committing then s
      else
        match s.judgePut r q with
        | (s', .some h) => s'.modPut r (fun p => { p with head := h })
        | (s', .none) => State.putLoop fuel (s'.modPut r (fun p => { p with hold := p.hold.tail })) r

/-- The condition that held the head has ended: the queue is judged from its head. -/
def State.judgePutQueue (s : State) (r : RingId) : State :=
  State.putLoop (s.ring r).put.hold.length (s.modPut r (fun p => { p with head := .clear })) r

/-- A put request delivered by the Aperture Decoder (R52, R53). -/
def State.deliverPut (s : State) (r : RingId) (q : PutReq) : State :=
  let p := (s.ring r).put
  if Config.holdDepth ≤ p.hold.length then s.refusePut r q .queueFull
  else
    let s := s.modPut r (fun p => { p with hold := p.hold ++ [q] })
    if p.hold.isEmpty && decide (p.phase ≠ .committing) then s.judgePutQueue r else s

/-- The head of the put hold queue is a parked header. -/
def HeadHold.isParked : HeadHold → Bool
  | .parked _ => true
  | .clear | .waiting => false

/-- The park timer of a parked head. -/
def HeadHold.timer : HeadHold → Option Timer
  | .parked t => .some t
  | .clear | .waiting => .none

/-- The parked header leaves the head refused, and judging goes on behind it (R32, R68, R69). -/
def State.refuseParked (s : State) (r : RingId) (c : Cause) : State :=
  match (s.ring r).put.hold with
  | [] => s
  | q :: _ =>
    ((s.refusePut r q c).modPut r (fun p => { p with hold := p.hold.tail })).judgePutQueue r

/-- Room appears for a parked header, which is then taken (R67). -/
def State.roomAppears (s : State) (r : RingId) : State :=
  let x := s.ring r
  if x.put.head.isParked && decide (x.config.kind = .message) && x.hasRoom then s.judgePutQueue r
  else s

end Sys2Proof.Machine
end

