-- ==== Sys2Proof/Machine/Survey.lean ====
section
/-! DEFINITION. The Survey Unit (chapter 9). -/

namespace Sys2Proof.Machine

/-! ## Setup -/

/-- The trigger is a SYNC edge. -/
def Trigger.isSync : Trigger → Bool
  | .syncRise | .syncFall => true
  | .timer | .commit | .take => false

/-- The interval timer is running a holdoff (R154). -/
def Survey.inHoldoff (v : Survey) : Bool := v.setup.trigger.isSync && v.setup.holdoff

/-- The unit is ARMED or SAMPLING. -/
def Survey.busy (v : Survey) : Bool :=
  match v.state with
  | .idle => false
  | .armed | .sampling => true

/-- The unit IDLE, its timers cancelled and its accumulators discarded, which the model shows as 0 (log
24); setup and results kept. -/
def Survey.stopped (v : Survey) : Survey :=
  { v with state := .idle, acc := Accumulators.zero, delayTimer := .none, intervalTimer := .none }

/-! ## Accumulation (R155) -/

/-- The accumulators after a sample of value `n`. -/
def Accumulators.add (a : Accumulators) (n : Nat) : Accumulators where
  count := a.count + 1
  minimum := if a.count = 0 then n else min a.minimum n
  maximum := if a.count = 0 then n else max a.maximum n
  sum := a.sum + n
  last := n

/-- The results that accumulators store at the end of a cycle (R156, R157). -/
def Accumulators.results (a : Accumulators) (limitExit : Bool) : SurveyResults where
  minimum := a.minimum
  maximum := a.maximum
  average := a.sum / a.count
  last := a.last
  count := a.count
  limitExit := limitExit

/-- The unit IDLE at the end of a cycle by count with repeat off or by limit (R156, R157). Nothing there
sets the accumulators, which keep their values until the next ARM (log 24). -/
def Survey.ended (v : Survey) (acc : Accumulators) (limitExit : Bool) : Survey :=
  { v with
    state := .idle
    acc := acc
    results := acc.results limitExit
    delayTimer := .none
    intervalTimer := .none }

/-- The unit after a sample that does not end the cycle: under TIMER and SYNC the interval timer is
armed (R151, R154); under COMMIT and TAKE the next event is awaited (R152). -/
def Survey.goOn (v : Survey) (now : Time) : Survey :=
  match v.setup.trigger with
  | .timer | .syncRise | .syncFall =>
    { v with
      state := .sampling
      delayTimer := .none
      intervalTimer := .some (armTimer now v.setup.interval.toNat) }
  | .commit | .take => v

/-- A new cycle in repeat mode (R156). -/
def Survey.newCycle (v : Survey) (now : Time) : Survey :=
  let v := { v with acc := Accumulators.zero, delayTimer := .none }
  let armed := .some (armTimer now v.setup.interval.toNat)
  match v.setup.trigger with
  | .timer => { v with state := .sampling, intervalTimer := armed }
  | .commit | .take => { v with state := .sampling, intervalTimer := .none }
  | .syncRise | .syncFall =>
    if v.setup.holdoff then { v with state := .sampling, intervalTimer := armed }
    else { v with state := .armed, intervalTimer := .none }

/-- One sample, accumulated as one event, with the end of the cycle it may bring (R155 to R157). -/
def State.surveySample (s : State) (n : Nat) : State :=
  let v := s.survey
  let acc := v.acc.add n
  if n < v.setup.lowLimit.toNat ∨ v.setup.highLimit.toNat < n then
    (s.modSurvey (fun v => v.ended acc true)).raiseGlobal .surveyLimit
  else if v.setup.samples.toNat ≤ acc.count then
    if v.setup.repeats then
      s.modSurvey (fun v => { v.newCycle s.timebase with results := acc.results false })
    else
      (s.modSurvey (fun v => v.ended acc false)).raiseGlobal .surveyDone
  else s.modSurvey (fun v => { v.goOn s.timebase with acc := acc })

/-- A sample of the source ring's occ as it stands. -/
def State.surveySampleOcc (s : State) : State := s.surveySample (s.ring s.survey.setup.source).occ

/-! ## Reports of the source ring (R152) -/

/-- A publish, with occ after it and after its drop slip. -/
def State.surveyPublish (s : State) (r : RingId) (occ : Nat) : State :=
  let v := s.survey
  if v.state = .sampling ∧ v.setup.trigger = .commit ∧ v.setup.source = r then s.surveySample occ
  else s

/-- A take start on the head slot, with occ after the departure and the slot's dwell, at most 65535. -/
def State.surveyTakeStart (s : State) (r : RingId) (occ dwell : Nat) : State :=
  let v := s.survey
  if v.state = .sampling ∧ v.setup.trigger = .take ∧ v.setup.source = r then
    match v.setup.quantity with
    | .occupancy => s.surveySample occ
    | .dwell => s.surveySample (min dwell 65535)
  else s

/-- The source ring enters ABORTING or IDLE (R158). -/
def State.surveySourceLoss (s : State) (r : RingId) : State :=
  if s.survey.busy ∧ s.survey.setup.source = r then
    (s.modSurvey Survey.stopped).raiseGlobal .surveySourceLost
  else s

/-! ## ARM and DISARM (R149, R150) -/

/-- The judgement of an ARM, in the order of R149. -/
def State.armResult (s : State) : GlobalResult :=
  let v := s.survey
  if v.busy then .wrongState
  else if (v.setup.quantity = .dwell ∧ v.setup.trigger ≠ .take) ∨
      v.setup.highLimit.toNat < v.setup.lowLimit.toNat then .badSetup
  else if !(s.ring v.setup.source).state.serving then .sourceIdle
  else .accepted

/-- An accepted ARM begins a cycle. -/
def State.surveyBegin (s : State) : State :=
  match s.survey.setup.trigger with
  | .timer =>
    (s.modSurvey (fun v => { v with state := .sampling, acc := Accumulators.zero })).surveySampleOcc
  | .commit | .take =>
    s.modSurvey (fun v => { v with state := .sampling, acc := Accumulators.zero })
  | .syncRise | .syncFall =>
    s.modSurvey (fun v => { v with state := .armed, acc := Accumulators.zero })

def State.surveyArm (s : State) : State :=
  match s.armResult with
  | .accepted => s.surveyBegin
  | .none | .wrongState | .badSetup | .sourceIdle => s

/-- The judgement of a DISARM. -/
def State.disarmResult (s : State) : GlobalResult :=
  if s.survey.busy then .accepted else .wrongState

def State.surveyDisarm (s : State) : State :=
  if s.survey.busy then s.modSurvey Survey.stopped else s

/-! ## The survey's own events (R151, R153, R154) -/

/-- SURVEY_INTERVAL_EXPIRY: a due interval timer that is no holdoff takes a sample. -/
def State.surveyIntervalExpiry (s : State) : State :=
  let v := s.survey
  if v.state = .sampling ∧ timerDue s.timebase v.intervalTimer ∧ !v.inHoldoff then s.surveySampleOcc
  else s

/-- HOLDOFF_EXPIRY: a due interval timer that is a holdoff returns the unit to ARMED. -/
def State.surveyHoldoffExpiry (s : State) : State :=
  let v := s.survey
  if v.state = .sampling ∧ timerDue s.timebase v.intervalTimer ∧ v.inHoldoff then
    s.modSurvey (fun v => { v with state := .armed, intervalTimer := .none })
  else s

/-- An edge has the selected polarity, or a level is the active one (R153). -/
def Trigger.matchesLevel (t : Trigger) (high : Bool) : Bool :=
  match t with
  | .syncRise => high
  | .syncFall => !high
  | .timer | .commit | .take => false

/-- SYNC_EDGE: SYNC has changed to `rising`; the edge is looked at while the unit is ARMED and no
delay runs. -/
def State.syncEdge (s : State) (rising : Bool) : State :=
  let s := { s with syncLevel := rising }
  let v := s.survey
  if s.resetN ∧ v.state = .armed ∧ v.setup.trigger.matchesLevel rising ∧ v.delayTimer = .none then
    if v.setup.syncDelay = 0 then s.surveySampleOcc
    else s.modSurvey (fun v =>
      { v with delayTimer := .some (armTimer s.timebase v.setup.syncDelay.toNat) })
  else s

/-- SYNC_DELAY_EXPIRY: the level of SYNC qualifies the edge, or not. -/
def State.syncDelayExpiry (s : State) : State :=
  let v := s.survey
  if v.state = .armed ∧ timerDue s.timebase v.delayTimer then
    let s := s.modSurvey (fun v => { v with delayTimer := .none })
    if v.setup.trigger.matchesLevel s.syncLevel then s.surveySampleOcc else s
  else s

end Sys2Proof.Machine
end

