-- ==== Sys2Proof/Machine/TakeEngine.lean ====
section
/-! DEFINITION. The Take Engine (chapter 6) with the take side of the Check Unit (section 4.3) and the
takes of PACED rings (section 7.4). -/

namespace Sys2Proof.Machine

/-! ## Refusals and releases -/

/-- A take refusal: ERROR, with the record, flag and counter of its cause (R123). -/
def State.refuseTake (s : State) (r : RingId) (q : TakeReq) (c : Cause) : State :=
  (s.recordTake r c q.requester q.offset).respondError q.requester q.tag

/-- The release of the in-take slot (R115). The tests of the drain condition and of the hold queue that
follow it are the caller's. -/
def State.releaseTake (s : State) (r : RingId) : State := (s.clearTake r).roomAppears r

/-! ## Take starts (R110, R127 to R129) -/

/-- The take number advances to the next value that no entry of the read list holds (R110). -/
def TakeEngine.nextNumber (t : TakeEngine) : BitVec 8 :=
  let candidates := (List.range 256).map (fun i => t.record.number + 1 + BitVec.ofNat 8 i)
  (candidates.find? (fun n => !t.reads.any (fun e => e.number == n))).getD (t.record.number + 1)

/-- The take record as a take start at position `p` sets it, from that position's stamp entry. -/
def Ring.takeRecordAt (x : Ring) (p : Nat) (e : Stamp) (replay : Bool) (now : Time) : TakeRecord where
  present := true
  position := p
  length := e.length
  lastUsed := x.config.lastUsed e.length
  number := x.take.nextNumber
  replay := replay
  startTime := now
  cursor := 0
  crc := crcStart

/-- Steps 2 to 4 of R110 for the slot at position `p`. -/
def State.startTake (s : State) (r : RingId) (p : Nat) (replay : Bool) : State :=
  let x := s.ring r
  let e := s.stampAt r p
  let s := s.modTake r (fun t => { t with record := x.takeRecordAt p e replay s.timebase })
  let s := s.cadenceStart r
  if replay then s else s.surveyTakeStart r x.occ (elapsed s.timebase e.commitTime)

/-- A take start on the head slot (R110): the departure first, the age-expiry timer for the next head
last (R131; log 14). -/
def State.takeHead (s : State) (r : RingId) : State :=
  let p := (s.ring r).t
  ((s.modRing r (fun x => x.departN 1)).startTake r p false).rearmAge r

/-- A replay of the retained slot (R128). -/
def State.replay (s : State) (r : RingId) : State :=
  ((s.startTake r (s.ring r).retainedPosition true).raise r .slipReplay).bump r .replays 1

/-! ## Reads of the in-take slot (R112, R113) -/

/-- Words of the record part of a read at offset `k` of `c` words: offsets k..min(k+c−1, U). -/
def TakeRecord.recordWords (t : TakeRecord) (k c : Nat) : Nat := min (k + c) (t.lastUsed + 1) - k

/-- The downstream read of `n` words at offset `k` of the in-take position (R113, R117). Its generation is
0, the model's choice: table 1.5 gives one for side PUT only (DESIGN CHOICE, log 18). -/
def Ring.takeIssue (x : Ring) (r : RingId) (q : TakeReq) (k n : Nat) : Issue where
  owner := .take r
  requester := q.requester
  tag := q.tag
  generation := 0
  dir := .read
  addr := x.config.storageAddr x.take.record.position k
  count := n
  data := []
  lanes := []

/-- The read of `n` words at offset `k` is handed to the Memory Port and joins the read list. -/
def State.handRead (s : State) (r : RingId) (q : TakeReq) (k n : Nat) (coversU : Bool) : State :=
  let x := s.ring r
  (s.modTake r (fun t =>
    { t with
      reads := t.reads ++
        [⟨q.requester, q.tag, q.offset, q.count, x.take.record.number, coversU, n⟩] })).handDown
    (x.takeIssue r q k n)

/-- A read that passes is served: from storage, or with fill words alone beyond U (R112). -/
def State.serveRead (s : State) (r : RingId) (q : TakeReq) : State :=
  let t := (s.ring r).take.record
  if t.lastUsed < q.offset then s.respondFill r q.requester q.tag q.count
  else
    let n := t.recordWords q.offset q.count
    s.handRead r q q.offset n (decide (q.offset + n = t.lastUsed + 1))

/-! ## Judging (R81, R82, R109, R112, R117) -/

/-- An earlier read of the present take is not yet answered (R82). -/
def TakeEngine.readInFlight (t : TakeEngine) : Bool :=
  t.reads.any (fun e => e.number == t.record.number)

/-- A read with a take present, take check on (R81, R82). -/
def State.judgeChecked (s : State) (r : RingId) (q : TakeReq) : Judged :=
  let t := (s.ring r).take
  if t.readInFlight then (s, .some .waiting)
  else if q.offset = 0 then
    ((s.modTake r (fun t => { t with record := { t.record with cursor := 0, crc := crcStart } })).serveRead
      r q, .none)
  else if q.offset = t.record.cursor then (s.serveRead r q, .none)
  else (s.refuseTake r q .outOfOrder, .none)

/-- A read with a take present (R112). -/
def State.judgePresent (s : State) (r : RingId) (q : TakeReq) : Judged :=
  if (s.ring r).config.takeCheck then s.judgeChecked r q else (s.serveRead r q, .none)

/-- The paced take state of a ring becomes `p` (R127). -/
def State.setPaced (s : State) (r : RingId) (p : PacedState) : State :=
  s.modRing r (fun x => { x with paced := p })

/-- An offset-0 read with no take present on a PACED ring (R127, R129). -/
def State.judgePaced (s : State) (r : RingId) (q : TakeReq) : Judged :=
  match (s.ring r).pacedChoice with
  | .head => (((s.setPaced r .flowing).takeHead r).serveRead r q, .none)
  | .replay => (((s.setPaced r .replaying).replay r).serveRead r q, .none)
  | .fill => (s.respondFill r q.requester q.tag q.count, .none)

/-- An offset-0 read with no take present on a MESSAGE ring (R109). -/
def State.judgeMessage (s : State) (r : RingId) (q : TakeReq) : Judged :=
  let x := s.ring r
  if x.occ ≠ 0 then ((s.takeHead r).serveRead r q, .none)
  else if x.config.parkTimeout ≠ 0 ∧ x.state = .running then
    (s, .some (.parked (armTimer s.timebase x.config.parkTimeout.toNat)))
  else (s.respondFill r q.requester q.tag q.count, .none)

/-- A read with no take present (R109). -/
def State.judgeAbsent (s : State) (r : RingId) (q : TakeReq) : Judged :=
  if q.offset ≠ 0 then (s.respondFill r q.requester q.tag q.count, .none)
  else
    match (s.ring r).config.kind with
    | .message => s.judgeMessage r q
    | .paced => s.judgePaced r q

/-- RELEASE when judged (R117): the header read is handed before the release. -/
def State.judgeRelease (s : State) (r : RingId) (q : TakeReq) : State :=
  if (s.ring r).take.record.present then (s.handRead r q 0 1 false).releaseTake r
  else s.respondFill r q.requester q.tag 1

/-- The judging of one take request. -/
def State.judgeTake (s : State) (r : RingId) (q : TakeReq) : Judged :=
  if q.release then (s.judgeRelease r q, .none)
  else if (s.ring r).take.record.present then s.judgePresent r q
  else s.judgeAbsent r q

/-! ## The hold queue (R107, R108) -/

/-- Judging goes on down the queue; each entry judged once, `fuel` of them at most (R107). -/
def State.takeLoop : Nat → State → RingId → State
  | 0, s, _ => s
  | fuel + 1, s, r =>
    match (s.ring r).take.hold with
    | [] => s
    | q :: _ =>
      match s.judgeTake r q with
      | (s', .some h) => s'.modTake r (fun t => { t with head := h })
      | (s', .none) => State.takeLoop fuel (s'.modTake r (fun t => { t with hold := t.hold.tail })) r

/-- The condition that held the head has ended: the queue is judged from its head. -/
def State.judgeTakeQueue (s : State) (r : RingId) : State :=
  State.takeLoop (s.ring r).take.hold.length (s.modTake r (fun t => { t with head := .clear })) r

/-- A head that waits under R82 is judged once the read it waits for has been answered: no read of the
same take is left in the read list. No take can start while it waits, so that the take number is still
that of the read before it, revoked or not (R107; log 17). -/
def State.judgeTakeWaiting (s : State) (r : RingId) : State :=
  let t := (s.ring r).take
  if decide (t.head = .waiting) && !t.readInFlight then s.judgeTakeQueue r else s

/-- A data-half read or RELEASE delivered to the Take Engine (R107, R108). -/
def State.deliverTake (s : State) (r : RingId) (q : TakeReq) : State :=
  let t := (s.ring r).take
  if Config.holdDepth ≤ t.hold.length then s.refuseTake r q .queueFull
  else
    let s := s.modTake r (fun t => { t with hold := t.hold ++ [q] })
    if t.hold.isEmpty then s.judgeTakeQueue r else s

/-- A publish reaches a read parked on an empty MESSAGE ring (R118). -/
def State.startParkedTake (s : State) (r : RingId) : State :=
  let x := s.ring r
  if x.take.head.isParked && decide (x.config.kind = .message) then s.judgeTakeQueue r else s

/-! ## Downstream outcomes (R83, R84, R114, R116) -/

/-- The entry of an upstream pair. -/
def ReadEntry.isPair (e : ReadEntry) (q : Requester) (tag : UTag) : Bool :=
  e.requester == q && e.tag == tag

/-- The outcome acts on the present take (R106). -/
def TakeRecord.matchesEntry (t : TakeRecord) (e : ReadEntry) : Bool :=
  t.present && t.number == e.number

/-- The words of an OK response: the record part as storage returned it, then fill words (R114). -/
def Ring.readData (x : Ring) (e : ReadEntry) (data : List Word) : List Word :=
  data ++ List.replicate (e.count - e.words) x.config.fillWord

/-- The answer of a checked read that covers U (R84): the trailer is compared, then the slot is
released. -/
def State.answerTrailer (s : State) (r : RingId) (e : ReadEntry) (data : List Word) : State :=
  let x := s.ring r
  let crc := crcWords x.take.record.crc data.dropLast
  let s :=
    if trailerCheck (data.getLastD 0) = crc then s.respond e.requester e.tag .ok (x.readData e data)
    else (s.recordTake r .checkMismatch e.requester e.offset).respondError e.requester e.tag
  s.releaseTake r

/-- The answer of a checked read that ends before U (R83). -/
def State.answerChecked (s : State) (r : RingId) (e : ReadEntry) (data : List Word) : State :=
  let x := s.ring r
  (s.modTake r (fun t =>
    { t with
      record :=
        { t.record with
          crc := crcWords t.record.crc data
          cursor := min (e.offset + e.count) t.record.lastUsed } })).respond e.requester e.tag .ok
    (x.readData e data)

/-- The words of the record part as the response gives them: its first `n`, and a free word for each one
that it does not carry, which only a late response to another request leaves out (R14, R114; log 26). -/
def State.receivedWords (s : State) (n : Nat) (data : List Word) : List Word :=
  data.take n ++ (List.range (n - data.length)).map (fun i => Config.freeWord (s.freeCount + i))

/-- The free words of a response are taken. -/
def State.countFree (s : State) (n : Nat) (data : List Word) : State :=
  { s with freeCount := s.freeCount + (n - data.length) }

/-- An OK outcome (table of R114). -/
def State.takeOk (s : State) (r : RingId) (e : ReadEntry) (data : List Word) : State :=
  let x := s.ring r
  if !x.take.record.matchesEntry e then s.respond e.requester e.tag .ok (x.readData e data)
  else if x.config.takeCheck then
    if e.coversU then s.answerTrailer r e data else s.answerChecked r e data
  else
    let s := s.respond e.requester e.tag .ok (x.readData e data)
    if e.coversU then s.releaseTake r else s

/-- An ERROR outcome or a timeout expiry (R116). -/
def State.takeError (s : State) (r : RingId) (e : ReadEntry) : State :=
  (s.recordTake r .downstream e.requester e.offset).respondError e.requester e.tag

/-- A downstream outcome delivered to the Take Engine: matched to its entry by the upstream pair
(R106), answered, and followed by the judging of a read that waited for it (R82). -/
def State.takeOutcome (s : State) (r : RingId) (q : Requester) (tag : UTag) (status : Status)
    (data : List Word) : State :=
  match (s.ring r).take.reads.find? (fun e => e.isPair q tag) with
  | .none => s
  | .some e =>
    let s := s.modTake r (fun t => { t with reads := t.reads.filter (fun e => !e.isPair q tag) })
    let s :=
      match status with
      | .ok => (s.countFree e.words data).takeOk r e (s.receivedWords e.words data)
      | .error => s.takeError r e
    s.judgeTakeWaiting r

end Sys2Proof.Machine
end

