-- ==== Sys2Proof/Machine/Commit.lean ====
section
/-! DEFINITION. The publish (R41), the commit completion with its verdicts (R63, R73, R77, R89) and the
outcome of a put write (R62). -/

namespace Sys2Proof.Machine

/-! ## Publish (R41, R45) -/

/-- The stamp entry of the committed slot (table 2.9, R49). -/
def Ring.stampOf (x : Ring) (now : Time) (gap : Bool) : Stamp where
  commitTime := now
  marker := x.put.marker
  sequence := x.put.sequence
  length := x.put.length
  gap := gap
  check := x.config.checkMode.stampState

/-- Steps 1 and 2 of R41: the stamp entry of the open position, then occ. -/
def State.enterSet (s : State) (r : RingId) (gap : Bool) : State :=
  let x := s.ring r
  (s.writeStamp r x.openPosition (x.stampOf s.timebase gap)).modRing r
    (fun x => { x with occ := x.occ + 1 })

/-- Step 3 of R41 on a PACED ring, after the slip: the age-expiry timer is armed when the head has
changed, by the slip or by a publish on an empty ring (R125, R131). -/
def State.publishAge (s : State) (r : RingId) (headChanged : Bool) : State :=
  if headChanged then s.rearmAge r else s

/-- A publish: the set, the slip, the timer, then the reports to the Survey Unit, the Take Engine and
the Event Unit. The survey's sample is occ after the slip (R125, R152; log 14). -/
def State.publish (s : State) (r : RingId) (gap : Bool) : State :=
  let empty := decide ((s.ring r).occ = 0)
  let entered := s.enterSet r gap
  let slipped := entered.dropSlip r
  let occ := (slipped.ring r).occ
  let headChanged := empty || decide ((entered.ring r).slipCount ≠ 0)
  (((slipped.publishAge r headChanged).surveyPublish r occ).startParkedTake r).bump r .published 1

/-! ## Commit completion -/

/-- The U request is answered. -/
def State.answerU (s : State) (u : Option UReq) (status : Status) : State :=
  match u with
  | .none => s
  | .some u => s.respond u.requester u.tag status []

/-- An occurrence recorded against the U request. -/
def State.recordU (s : State) (r : RingId) (c : Cause) (u : Option UReq) : State :=
  match u with
  | .none => s
  | .some u => s.recordPut r c u.requester u.offset

/-- A VERIFY slot with a trailer mismatch is discarded and reported (R77). -/
def State.checkVerdict (s : State) (r : RingId) (u : Option UReq) : State :=
  ((s.recordU r .checkMismatch u).alignCheckReport r).answerU u .error

/-- The alignment verdict and the publish (steps 3 and 4 of R63, R89): the publish is claimed first,
the checker's own state changes after it. -/
def State.alignVerdict (s : State) (r : RingId) (u : Option UReq) : State :=
  let x := s.ring r
  let j := x.align.judge x.config s.timebase x.put.marker x.put.sequence
  let s :=
    match j.decision with
    | .publish => s.publish r false
    | .publishGap => (((s.publish r true).raise r .seqGap).bump r .seqGaps 1)
    | .drop => s.bump r .droppedAlign 1
  ((s.modAlign r (fun _ => j.after)).raiseOpt r j.flag).answerU u .ok

/-- The verdicts of R63 on a RUNNING or DRAINING ring, in their order. -/
def State.verdicts (s : State) (r : RingId) (u : Option UReq) : State :=
  let p := (s.ring r).put
  if p.downFault then s.answerU u .error
  else if decide ((s.ring r).config.checkMode = .verify) && p.mismatch then s.checkVerdict r u
  else s.alignVerdict r u

/-- The completion on an ABORTING ring: no verdict is taken (R73). -/
def State.abortedCompletion (s : State) (r : RingId) (u : Option UReq) : State :=
  (s.recordU r .aborting u).answerU u .error

/-- Commit completion: the verdicts, then the return to NONE, then the hold queue (R63 step 5). -/
def State.commitCompletion (s : State) (r : RingId) : State :=
  let u := (s.ring r).put.uRequest
  let s := if (s.ring r).state = .aborting then s.abortedCompletion r u else s.verdicts r u
  (s.modPut r (fun p => { p with phase := .none, uRequest := .none })).judgePutQueue r

/-! ## The outcome of a put write (R62, R64) -/

def WriteEntry.isPair (e : WriteEntry) (q : Requester) (tag : UTag) : Bool :=
  e.requester == q && e.tag == tag

/-- The pair is that of the U request, whose answer waits for the commit completion (R64). -/
def PutEngine.isU (p : PutEngine) (q : Requester) (tag : UTag) : Bool :=
  match p.uRequest with
  | .none => false
  | .some u => p.slotOpen && u.requester == q && u.tag == tag

/-- The generation is that of the slot FILLING or COMMITTING (R62). -/
def PutEngine.isCurrent (p : PutEngine) (g : BitVec 8) : Bool := p.slotOpen && p.generation == g

/-- One write fewer is outstanding in the torn generation `g`; an entry at 0 leaves the list (R62). -/
def tornAfter (torn : List TornEntry) (g : BitVec 8) : List TornEntry :=
  (torn.map (fun e => if e.generation = g then { e with count := e.count - 1 } else e)).filter
    (fun e => decide (e.count ≠ 0))

/-- The Put Engine's counts after an outcome of generation `g`. -/
def PutEngine.counted (p : PutEngine) (g : BitVec 8) (status : Status) : PutEngine :=
  if p.isCurrent g then
    { p with
      outstanding := p.outstanding - 1
      downFault := p.downFault || decide (status = .error) }
  else { p with torn := tornAfter p.torn g }

/-- The completion or the end of a generation wait that an outcome may bring (R58, R62). -/
def State.afterOutcome (s : State) (r : RingId) (current : Bool) : State :=
  let p := (s.ring r).put
  if current then
    if decide (p.phase = .committing) && decide (p.outstanding = 0) then s.commitCompletion r else s
  else
    if decide (p.head = .waiting) && !p.generationHeld then s.judgePutQueue r else s

/-- A downstream outcome delivered to the Put Engine (R62): matched to its write list entry by the
upstream pair, counted, recorded when ERROR, and answered unless it is the U request's. R62 gives the
record and what the outcome ends no order: the model records DOWNSTREAM first, so that a cause that the
completion or a header judged afresh brings in the same event stands last (DESIGN CHOICE, log 27). -/
def State.putOutcome (s : State) (r : RingId) (q : Requester) (tag : UTag) (g : BitVec 8)
    (status : Status) : State :=
  let p := (s.ring r).put
  match p.writes.find? (fun e => e.isPair q tag) with
  | .none => s
  | .some e =>
    let s := s.modPut r (fun p =>
      { p.counted g status with writes := p.writes.filter (fun e => !e.isPair q tag) })
    let s := if status = .error then s.recordPut r .downstream q e.offset else s
    let s := if p.isU q tag then s else s.respond q tag status []
    s.afterOutcome r (p.isCurrent g)

end Sys2Proof.Machine
end

