-- ==== Sys2Proof/Machine/Operands.lean ====
section
/-! DEFINITION. The operand forms of a request: the decoded regions and classes of section 1.2, the
checks and offsets of section 1.3, and the status word of R50. -/

namespace Sys2Proof.Machine

/-! ## Regions (table 1.3) -/

inductive Region where
  | put (r : RingId)
  | take (r : RingId)
  | guarded (r : RingId)
deriving DecidableEq, Repr

/-- Byte address `a` lies in the `len` bytes from `lo`. -/
def inRange (lo len a : Nat) : Bool := decide (lo ≤ a) && decide (a < lo + len)

/-- Bytes of one aperture, 8S. -/
def RingConfig.apertureBytes (c : RingConfig) : Nat := 8 * c.slotWords

/-- Bytes of the storage area, 4·N·S. -/
def RingConfig.storageBytes (c : RingConfig) : Nat := 4 * c.slots * c.slotWords

/-- The region of one ring that byte address `a` lies in, for a request of direction `d`. -/
def Ring.regionOf (x : Ring) (r : RingId) (d : Dir) (a : Nat) : Option Region :=
  if !x.state.active then .none
  else if inRange x.config.putBase.toNat x.config.apertureBytes a then .some (.put r)
  else if inRange x.config.takeBase.toNat x.config.apertureBytes a then .some (.take r)
  else if decide (d = .write) && x.config.guard &&
      inRange x.config.storageBase.toNat x.config.storageBytes a then .some (.guarded r)
  else .none

/-- The region a word lies in. START keeps the regions of active rings apart (R29), so that the order
in which the rings are asked decides nothing (log 19). -/
def State.regionOf (s : State) (d : Dir) (a : Nat) : Option Region :=
  allRings.findSome? (fun r => (s.ring r).regionOf r d a)

/-! ## Classes (R4, R5) -/

inductive ReqClass where
  | pass
  | put (r : RingId) (k : Nat)
  | take (r : RingId) (k : Nat)
  | guardedWrite (r : RingId)
  | straddle
deriving DecidableEq, Repr

/-- The class of a request whose words all lie in region `g`; `a` is the first word's address. -/
def State.classIn (s : State) (g : Region) (a : Nat) : ReqClass :=
  match g with
  | .put r => .put r ((a - (s.ring r).config.putBase.toNat) / 4)
  | .take r => .take r ((a - (s.ring r).config.takeBase.toNat) / 4)
  | .guarded r => .guardedWrite r

/-- The regions of a request's words, first word first. -/
def State.wordRegions (s : State) (q : UpRequest) : List (Option Region) :=
  (List.range q.count).map (fun i => s.regionOf q.dir (q.addr.toNat + 4 * i))

/-- The classification of R5, with the straddle of R4 for a range past the top. -/
def State.classify (s : State) (q : UpRequest) : ReqClass :=
  let a := q.addr.toNat
  if 0xFFFFFFFC < a + 4 * (q.count - 1) then .straddle
  else
    let regions := s.wordRegions q
    match s.regionOf q.dir a with
    | .none => if regions.all (fun g => g == .none) then .pass else .straddle
    | .some g => if regions.all (fun h => h == .some g) then s.classIn g a else .straddle

/-! ## The checks of R9 -/

/-- Some word of a burst lies at an offset of S or above. -/
def touchesControl (c : RingConfig) (k count : Nat) : Bool := decide (c.slotWords ≤ k + count - 1)

/-- The two checks both apertures share before their cells: ABORTING, the filter, MIXED. -/
def Ring.commonCheck (x : Ring) (f : Filter) (q : UpRequest) (k : Nat) : Option Cause :=
  if x.state = .aborting then .some .aborting
  else if !f.passes q.requester then .some .wrongRequester
  else if decide (1 < q.count) && touchesControl x.config k q.count then .some .mixed
  else .none

/-- The put columns of table 1.4 and the lanes of check 5. -/
def Ring.putCell (x : Ring) (q : UpRequest) (k : Nat) : Option Cause :=
  let size := x.config.slotWords
  match q.dir with
  | .read => if k = size + 1 then .none else .some .wrongDirection
  | .write =>
    if k < size then
      (if q.lanes.all (fun m => m == 0xF) then .none else .some .partialLanes)
    else if k = size then .none
    else .some .unusedOffset

/-- The take columns of table 1.4: every write is refused, no read is. -/
def takeCell (q : UpRequest) : Option Cause :=
  match q.dir with
  | .read => .none
  | .write => .some .wrongDirection

/-- The first check of R9 that fails on the put aperture. -/
def Ring.putCheck (x : Ring) (q : UpRequest) (k : Nat) : Option Cause :=
  (x.commonCheck x.config.producer q k).or (x.putCell q k)

/-- The first check of R9 that fails on the take aperture. -/
def Ring.takeCheckCause (x : Ring) (q : UpRequest) (k : Nat) : Option Cause :=
  (x.commonCheck x.config.consumer q k).or (takeCell q)

/-! ## The status word (R50, table 3.2) -/

/-- The ring state's code (tables 3.2 and 11.6). -/
def RingState.code : RingState → Nat
  | .idle => 0
  | .running => 1
  | .draining => 2
  | .aborting => 3

/-- The alignment state's code (R102). -/
def AlignState.code : AlignState → Nat
  | .off => 0
  | .search => 1
  | .confirm => 2
  | .aligned => 3
  | .bypassed => 4

/-- The paced take state's code (R136). -/
def PacedState.code : PacedState → Nat
  | .none => 0
  | .priming => 1
  | .flowing => 2
  | .replaying => 3

def Ring.statusWord (x : Ring) : Word :=
  BitVec.ofNat 32 (packBits
    [(3, x.state.code), (3, x.align.state.code), (2, x.paced.code), (1, bit x.take.record.present),
     (1, bit x.put.slotOpen), (11, x.occ), (11, x.freePositions)])

end Sys2Proof.Machine
end

