-- ==== Sys2Proof/Machine/RingTable.lean ====
section
/-! DEFINITION. The Ring Table's commands (chapter 2): START with its validation, STOP, ABORT, FLUSH,
SNAPSHOT, and the entry to IDLE with its two conditions. -/

namespace Sys2Proof.Machine

/-! ## Entry to IDLE (R33, R35, R36) -/

/-- No downstream request of the ring is BUSY or waits in the issue queue. -/
def State.downstreamClear (s : State) (r : RingId) : Bool :=
  decide (s.busyCount r = 0) && !s.inIssueQueue r

/-- The drain condition (R33). -/
def State.drainCondition (s : State) (r : RingId) : Bool :=
  let x := s.ring r
  !x.put.slotOpen && decide (x.occ = 0) && !x.take.record.present && x.put.hold.isEmpty &&
    x.take.hold.isEmpty && s.downstreamClear r

/-- The condition under which a ring enters IDLE: the drain condition of a DRAINING ring, the abort
condition of an ABORTING one (R33, R35). -/
def State.idleCondition (s : State) (r : RingId) : Bool :=
  match (s.ring r).state with
  | .draining => s.drainCondition r
  | .aborting => s.downstreamClear r
  | .idle | .running => false

/-- The fields that entry to IDLE resets (R36, tables 2.3, 5.2 and 8.2). -/
def Ring.entered (x : Ring) : Ring :=
  { x with
    state := .idle
    occ := 0
    retained := false
    paced := .none
    blocks := []
    align := { x.align with state := .off, searchTimer := .none }
    cadence := { x.cadence with absent := false, lateTimer := .none }
    ageTimer := .none
    secondTimer := .none
    put := { x.put with head := .clear }
    take := { x.take with head := .clear } }

/-- The entry to IDLE (R36). -/
def State.enterIdle (s : State) (r : RingId) : State :=
  ((s.modRing r Ring.entered).surveySourceLoss r).raise r .ringIdle

/-- The Ring Table's test at the end of an event: the first at which the condition holds is the entry
to IDLE (R33, R35; log 8). -/
def State.settle (s : State) (r : RingId) : State := if s.idleCondition r then s.enterIdle r else s

/-! ## START (R29 to R31) -/

/-- Two byte ranges, (base, length), share a byte. -/
def overlap (a b : Nat × Nat) : Bool := decide (a.1 < b.1 + b.2) && decide (b.1 < a.1 + a.2)

/-- The three ranges of R30: put aperture, take aperture, storage. -/
def RingConfig.putRange (c : RingConfig) : Nat × Nat := (c.putBase.toNat, c.apertureBytes)

def RingConfig.takeRange (c : RingConfig) : Nat × Nat := (c.takeBase.toNat, c.apertureBytes)

def RingConfig.storageRange (c : RingConfig) : Nat × Nat := (c.storageBase.toNat, c.storageBytes)

def RingConfig.ranges (c : RingConfig) : List (Nat × Nat) := [c.putRange, c.takeRange, c.storageRange]

/-- A range ends within the address space. -/
def fitsSpace (a : Nat × Nat) : Bool := decide (a.1 + a.2 ≤ 0x100000000)

/-- SELF_OVERLAP (R30). -/
def RingConfig.selfOverlap (c : RingConfig) : Bool :=
  overlap c.putRange c.takeRange || overlap c.putRange c.storageRange ||
    overlap c.takeRange c.storageRange

/-- CROSS_OVERLAP with one other ring (R30). -/
def RingConfig.crossOverlap (c d : RingConfig) : Bool :=
  c.ranges.any (fun a => d.ranges.any (fun b => overlap a b))

/-- N lies outside the range of the ring's kind (check 3). -/
def RingConfig.badSlotCount (c : RingConfig) : Bool :=
  let least := match c.kind with
    | .message => 2
    | .paced => 4
  decide (c.slots < least) || decide (1024 < c.slots)

/-- Check 8. -/
def RingConfig.badTimers (c : RingConfig) : Bool :=
  match c.kind with
  | .paced => decide (c.parkTimeout ≠ 0)
  | .message => decide (c.ageLimit ≠ 0)

/-- Check 9. -/
def RingConfig.badMarks (c : RingConfig) : Bool :=
  match c.kind with
  | .message => false
  | .paced =>
    !(decide (2 ≤ c.highMark.toNat) && decide (c.highMark.toNat + 2 ≤ c.slots) &&
      decide (1 ≤ c.centre.toNat) && decide (c.centre.toNat + 1 ≤ c.highMark.toNat))

/-- Check 11. -/
def RingConfig.badAlign (c : RingConfig) : Bool :=
  match c.alignMode with
  | .off => false
  | .strict => decide (c.errorThreshold = 0)
  | .auto => decide (c.errorThreshold = 0) || decide (c.searchTimeout = 0)

/-- Check 12. -/
def RingConfig.badCadence (c : RingConfig) : Bool :=
  decide (c.cadenceMin ≠ 0) && decide (c.cadenceMax ≠ 0) &&
    decide (c.cadenceMax.toNat < c.cadenceMin.toNat)

/-- The result of a START: the first check of table 2.6 that fails, else ACCEPTED (R29). -/
def State.startResult (s : State) (r : RingId) : CmdResult :=
  let c := (s.ring r).config
  if (s.ring r).state ≠ .idle then .wrongState
  else if c.sizeCode = 7 then .slotSize
  else if c.badSlotCount then .slotCount
  else if c.putBase.toNat % c.apertureBytes ≠ 0 ∨ c.takeBase.toNat % c.apertureBytes ≠ 0 then
    .apertureAlign
  else if !c.ranges.all fitsSpace then .addressWrap
  else if c.selfOverlap then .selfOverlap
  else if allRings.any (fun q =>
      q != r && (s.ring q).state.active && c.crossOverlap (s.ring q).config) then .crossOverlap
  else if c.badTimers then .kindTimers
  else if c.badMarks then .pacedMarks
  else if c.takeCheck && decide (c.checkMode = .off) then .checkSetup
  else if c.badAlign then .alignSetup
  else if c.badCadence then .cadenceOrder
  else if s.freeBlocks.length < c.blocksNeeded then .noStampSpace
  else .accepted

/-- The Alignment Checker at START (table 5.2). -/
def RingConfig.alignAtStart (c : RingConfig) (now : Time) : AlignChecker :=
  { AlignChecker.reset with
    state := match c.alignMode with
      | .off => .off
      | .strict | .auto => .search
    searchTimer := c.searchTimerAt now }

/-- The ring as an accepted START sets it, with its blocks (R31, table 2.3). -/
def Ring.started (x : Ring) (now : Time) (blocks : List Nat) : Ring :=
  { x with
    state := .running
    t := 0
    occ := 0
    retained := false
    paced := match x.config.kind with
      | .message => .none
      | .paced => .priming
    blocks := blocks
    put := PutEngine.reset
    take := TakeEngine.reset
    align := x.config.alignAtStart now
    cadence := { CadenceMonitor.reset with lateTimer := x.config.lateTimer now }
    ageTimer := .none
    secondTimer := .some (armTimer now Config.secondLength) }

/-- The blocks an accepted START takes: the lowest-numbered free ones (R44). -/
def State.blocksFor (s : State) (r : RingId) : List Nat :=
  s.freeBlocks.take (s.ring r).config.blocksNeeded

/-- An accepted START: the blocks, their entries zeroed, and the ring's blocks of hardware at their
starting state (R31). -/
def State.startRing (s : State) (r : RingId) : State :=
  let blocks := s.blocksFor r
  let s := { s with
    stamps := sparseClear (fun i => decide (i / Config.blockEntries ∈ blocks)) s.stamps }
  s.modRing r (fun x => x.started s.timebase blocks)

/-! ## STOP (R32) -/

/-- A parked header is refused with DRAINING at the STOP. -/
def State.refuseParkedDraining (s : State) (r : RingId) : State :=
  if (s.ring r).put.head.isParked then s.refuseParked r .draining else s

def State.stopRing (s : State) (r : RingId) : State :=
  ((s.modRing r (fun x => { x with state := .draining })).refuseParkedDraining r).settle r

/-! ## ABORT (R34) -/

/-- The put hold queue refused with ABORTING, in queue order. -/
def State.abortPutQueue (s : State) (r : RingId) : State :=
  let held := (s.ring r).put.hold
  (held.foldl (fun s q => s.refusePut r q .aborting) s).modPut r
    (fun p => { p with hold := [], head := .clear })

/-- The take hold queue refused with ABORTING, in queue order. -/
def State.abortTakeQueue (s : State) (r : RingId) : State :=
  let held := (s.ring r).take.hold
  (held.foldl (fun s q => s.refuseTake r q .aborting) s).modTake r
    (fun t => { t with hold := [], head := .clear })

/-- A FILLING slot is torn without flag or counter; a COMMITTING one stays (R34, R73). -/
def PutEngine.abortTear (p : PutEngine) : PutEngine :=
  match p.phase with
  | .filling => p.torned
  | .none | .committing => p

/-- The departure of the published slots, the retained slot and the timers that an ABORT ends. -/
def Ring.abortSet (x : Ring) : Ring :=
  { x.departAll with
    retained := false
    ageTimer := .none
    align := { x.align with searchTimer := .none }
    cadence := { x.cadence with lateTimer := .none } }

/-- The effects of ABORT, up to its test of the abort condition (R34). -/
def State.abortEffects (s : State) (r : RingId) : State :=
  let s := s.modRing r (fun x => { x with state := .aborting })
  let s := (s.abortPutQueue r).abortTakeQueue r
  let s := (s.modPut r PutEngine.abortTear).revokeTake r
  (s.modRing r Ring.abortSet).surveySourceLoss r

def State.abortRing (s : State) (r : RingId) : State := (s.abortEffects r).settle r

/-! ## FLUSH (R37, R134) -/

/-- The published set, the paced take state and the age-expiry timer at a FLUSH. -/
def Ring.flushSet (x : Ring) : Ring :=
  { x.departAll with
    ageTimer := .none
    paced := match x.config.kind with
      | .message => x.paced
      | .paced => .priming }

def State.flushRing (s : State) (r : RingId) : State :=
  ((s.modRing r Ring.flushSet).revokeTake r).roomAppears r

/-! ## SNAPSHOT (R38) -/

def RingEvents.snapshot (e : RingEvents) : RingEvents :=
  { e with bank := e.counters, counters := Vector.replicate 15 0 }

def State.snapshotRing (s : State) (r : RingId) : State := s.modEvents r RingEvents.snapshot

/-! ## Commands (R27, R28) -/

inductive RingCommand where
  | start
  | stop
  | abort
  | flush
  | snapshot
deriving DecidableEq, Repr

/-- The codes of R178. -/
def RingCommand.code : RingCommand → Byte
  | .start => 1
  | .stop => 2
  | .abort => 3
  | .flush => 4
  | .snapshot => 5

def RingCommand.ofCode (b : Byte) : Option RingCommand :=
  if b = 1 then .some .start
  else if b = 2 then .some .stop
  else if b = 3 then .some .abort
  else if b = 4 then .some .flush
  else if b = 5 then .some .snapshot
  else .none

/-- The result of a command in the state it finds (tables 2.5 and 2.6). -/
def State.commandResult (s : State) (r : RingId) (c : RingCommand) : CmdResult :=
  match c, (s.ring r).state with
  | .start, _ => s.startResult r
  | .stop, .running | .flush, .running => .accepted
  | .abort, .running | .abort, .draining => .accepted
  | .snapshot, _ => .accepted
  | .stop, .idle | .stop, .draining | .stop, .aborting => .wrongState
  | .flush, .idle | .flush, .draining | .flush, .aborting => .wrongState
  | .abort, .idle | .abort, .aborting => .wrongState

/-- The effects of an accepted command. -/
def State.commandEffect (s : State) (r : RingId) (c : RingCommand) : State :=
  match c with
  | .start => s.startRing r
  | .stop => s.stopRing r
  | .abort => s.abortRing r
  | .flush => s.flushRing r
  | .snapshot => s.snapshotRing r

/-- The Ring Table takes a command: it decides it, carries it out if accepted, and writes the command
and result fields (R27; log 21). -/
def State.ringCommand (s : State) (r : RingId) (c : RingCommand) : State :=
  let result := s.commandResult r c
  let done := if result = .accepted then s.commandEffect r c else s
  done.modRing r (fun x => { x with command := c.code, result := result })

end Sys2Proof.Machine
end

