-- ==== Sys2Proof/Machine/MemoryPort.lean ====
section
/-! DEFINITION. The Upstream Port and the Memory Port (chapter 1): acceptance, classification and
refusals of an upstream request, and the life of a downstream request. -/

namespace Sys2Proof.Machine

/-- What the meaning of a command answers. -/
abbrev Answer := Host.Outcome State Fault Refusal

/-- The command has its effect only while RESET_N is high; the part takes nothing while it is low
(R21, R48, R159, R170, R179). -/
def State.whileUp (s : State) (f : State → State) : State := if s.resetN then f s else s

/-! ## Acceptance (R1 to R3) -/

/-- The Upstream Port accepts a request of this requester (R1). -/
def State.accepts (s : State) (q : Requester) : Bool :=
  s.resetN && decide (s.outstandingOf q < Config.requesterLimit) &&
    decide (s.tagsInUse < Config.tagCount)

/-- A tag clash: answered with ERROR, without an entry of its own (R3). -/
def State.tagClash (s : State) (q : UpRequest) : State :=
  (s.sendUp ⟨q.requester, q.tag, .error, []⟩).raiseGlobal .tagClash

/-- The request's entry in the outstanding-request table (R2). -/
def State.enterOutstanding (s : State) (q : UpRequest) : State :=
  { s with outstanding := s.outstanding ++ [⟨q.requester, q.tag, q.dir, q.count⟩] }

/-! ## The classes (R6, R7, R10, R11, R12, R18) -/

/-- A request handed on at its own address (R18). Its generation is 0, the model's choice: table 1.5 gives
one for side PUT only (DESIGN CHOICE, log 18). -/
def passIssue (q : UpRequest) : Issue where
  owner := .pass
  requester := q.requester
  tag := q.tag
  generation := 0
  dir := q.dir
  addr := q.addr
  count := q.count
  data := q.data
  lanes := q.lanes

/-- A request of the put aperture that has passed R9 (R10). -/
def State.admitPut (s : State) (r : RingId) (q : UpRequest) (k : Nat) : State :=
  let x := s.ring r
  match q.dir with
  | .read => s.respond q.requester q.tag .ok [x.statusWord]
  | .write =>
    let body := if k = x.config.slotWords then PutBody.abandon else .words q.data
    (s.deliverPut r ⟨q.requester, q.tag, k, body⟩).settle r

/-- A request in the put aperture (R9, R12). -/
def State.putRequest (s : State) (r : RingId) (q : UpRequest) (k : Nat) : State :=
  match (s.ring r).putCheck q k with
  | .some c => (s.recordPut r c q.requester k).respondError q.requester q.tag
  | .none => s.admitPut r q k

/-- A request of the take aperture that has passed R9 (R11, R104). -/
def State.admitTake (s : State) (r : RingId) (q : UpRequest) (k : Nat) : State :=
  let x := s.ring r
  let size := x.config.slotWords
  if k = size + 1 then s.respond q.requester q.tag .ok [x.statusWord]
  else if size + 1 < k then s.respondFill r q.requester q.tag 1
  else (s.deliverTake r ⟨q.requester, q.tag, k, q.count, decide (k = size)⟩).settle r

/-- A request in the take aperture (R9, R12). -/
def State.takeRequest (s : State) (r : RingId) (q : UpRequest) (k : Nat) : State :=
  match (s.ring r).takeCheckCause q k with
  | .some c => (s.recordTake r c q.requester k).respondError q.requester q.tag
  | .none => s.admitTake r q k

/-- An accepted request, by its class. -/
def State.dispatchRequest (s : State) (q : UpRequest) : State :=
  match s.classify q with
  | .pass => s.handDown (passIssue q)
  | .straddle => (s.raiseGlobal .straddle).respondError q.requester q.tag
  | .guardedWrite r => (s.raise r .guardHit).respondError q.requester q.tag
  | .put r k => s.putRequest r q k
  | .take r k => s.takeRequest r q k

/-- A request offered: withheld (log 4), a tag clash, or entered and classified (R1 to R5). -/
def State.offer (s : State) (q : UpRequest) : State :=
  if !s.accepts q.requester then s
  else if s.pairHeld q.requester q.tag then s.tagClash q
  else (s.enterOutstanding q).dispatchRequest q

/-! ## Downstream (R13 to R16, R18, R19) -/

/-- The entry of the head request once it is issued (R13). -/
def State.busyEntry (s : State) (i : Issue) : TagEntry :=
  .busy i.owner i.requester i.tag i.generation (armTimer s.timebase s.downTimeout.toNat)

/-- The head of the issue queue takes the lowest FREE tag and is issued; it waits while there is none
(R13). -/
def State.issueHead (s : State) : State :=
  match s.issueQueue, s.lowestFreeTag with
  | i :: rest, .some t =>
    { s.setTag t (s.busyEntry i) with
      issueQueue := rest
      downRequests := s.downRequests ++ [⟨t, i.dir, i.addr, i.count, i.data, i.lanes⟩] }
  | _, _ => s

/-- The words of an OK response to a PASS request: those it carries on a READ, none on a WRITE (R18). -/
def State.passData (s : State) (q : Requester) (tag : UTag) (status : Status) (data : List Word) :
    List Word :=
  match status, s.outstanding.find? (fun e => e.isPair q tag) with
  | .ok, .some ⟨_, _, .read, _⟩ => data
  | .ok, .some ⟨_, _, .write, _⟩ => []
  | .ok, .none => []
  | .error, _ => []

/-- The outcome of a downstream request, delivered to its owner (R18, R19). -/
def State.deliver (s : State) (o : Owner) (q : Requester) (tag : UTag) (g : BitVec 8)
    (status : Status) (data : List Word) : State :=
  match o with
  | .pass => s.respond q tag status (s.passData q tag status data)
  | .put r => (s.putOutcome r q tag g status).settle r
  | .take r => (s.takeOutcome r q tag status data).settle r

/-- A response matched by its tag, whatever request holds it (R14). While RESET_N is low it is discarded
(R21; log 9). -/
def State.matchResponse (s : State) (t : DTag) (status : Status) (data : List Word) : State :=
  match s.tags[t] with
  | .free => s
  | .stale _ => s.setTag t .free
  | .busy o q tag g _ => (s.setTag t .free).deliver o q tag g status data

/-- The response timeout of a BUSY entry: ERROR to its owner, and a quarantine (R15). -/
def State.timeoutTag (s : State) (t : DTag) : State :=
  match s.tags[t] with
  | .free => s
  | .stale _ => s
  | .busy o q tag g timeout =>
    if timeout.due s.timebase then
      (s.setTag t (.stale (.some (armTimer s.timebase s.downTimeout.toNat)))).deliver o q tag g .error []
    else s

/-- The quarantine of a STALE entry (R16). -/
def State.quarantineTag (s : State) (t : DTag) : State :=
  match s.tags[t] with
  | .free => s
  | .busy _ _ _ _ _ => s
  | .stale quarantine => if timerDue s.timebase quarantine then s.setTag t .free else s

/-! ## The meanings -/

/-- UPSTREAM_REQUEST (R1). The link delivers well-formed requests only (log 5). -/
def execUpstreamRequest (q : UpRequest) (s : State) : Answer :=
  if q.wellFormed then .next (s.offer q) else .fault .requestForm

/-- DOWNSTREAM_ISSUE (R13). -/
def execDownstreamIssue (s : State) : Answer := .next (s.whileUp State.issueHead)

/-- DOWNSTREAM_RESPONSE (R14): of an earlier request under a reused tag too, whose words need not be as
many as the present one asked for (log 26). -/
def execDownstreamResponse (t : DTag) (status : Status) (data : List Word) (s : State) : Answer :=
  .next (s.whileUp (fun s => s.matchResponse t status data))

/-- RESPONSE_TIMEOUT (R15). -/
def execResponseTimeout (t : DTag) (s : State) : Answer := .next (s.whileUp (fun s => s.timeoutTag t))

/-- QUARANTINE_EXPIRY (R16). -/
def execQuarantineExpiry (t : DTag) (s : State) : Answer :=
  .next (s.whileUp (fun s => s.quarantineTag t))

end Sys2Proof.Machine
end

