-- ==== Sys2Proof/Machine/Timers.lean ====
section
/-! DEFINITION. The Timebase, the expiries of the rings' timers, the entry to IDLE as an event of its
own, the survey's events and the ALERT_N driver's. An expiry whose timer is not due changes nothing
(R138; log 2, log 3). -/

namespace Sys2Proof.Machine

/-! ## Park timers (R68, R119) -/

/-- The head of the put hold queue has parked and its timer is due. -/
def State.putParkExpiry (s : State) (r : RingId) : State :=
  if timerDue s.timebase (s.ring r).put.head.timer then (s.refuseParked r .parkExpired).settle r
  else s

/-- The parked read is answered with fill words and leaves the head; judging goes on behind it. -/
def State.fillParked (s : State) (r : RingId) : State :=
  match (s.ring r).take.hold with
  | [] => s
  | q :: _ =>
    ((s.respondFill r q.requester q.tag q.count).modTake r
      (fun t => { t with hold := t.hold.tail })).judgeTakeQueue r

def State.takeParkExpiry (s : State) (r : RingId) : State :=
  if timerDue s.timebase (s.ring r).take.head.timer then (s.fillParked r).settle r else s

/-! ## Timers of a ring -/

/-- The head departs as AGED_OUT and the timer is armed for the next head (R132). -/
def State.ageExpiry (s : State) (r : RingId) : State :=
  let x := s.ring r
  if x.state.serving && timerDue s.timebase x.ageTimer && decide (x.occ ≠ 0) then
    ((s.ageOutHead r).rearmAge r).settle r
  else s

/-- The search timer in SEARCH or CONFIRM (R99). -/
def State.searchTimerExpiry (s : State) (r : RingId) : State :=
  let a := (s.ring r).align
  if timerDue s.timebase a.searchTimer && (decide (a.state = .search) || decide (a.state = .confirm))
  then s.alignBypass r
  else s

/-- The next boundary falls one second after this one (R140). -/
def Timer.nextBoundary (t : Timer) : Timer :=
  armTimer (t.armedAt + BitVec.ofNat 32 t.interval) Config.secondLength

/-- The error-second count becomes 0 on a ring RUNNING or DRAINING; in ABORTING the boundary has no
effect (R95, R101, R140). -/
def Ring.atBoundary (x : Ring) (t : Timer) : Ring :=
  { x with
    secondTimer := .some t.nextBoundary
    align := if x.state.serving then { x.align with errorCount := 0 } else x.align }

def State.secondBoundary (s : State) (r : RingId) : State :=
  match (s.ring r).secondTimer with
  | .none => s
  | .some t => if t.due s.timebase then s.modRing r (fun x => x.atBoundary t) else s

/-- The parked header of a ring whose consumer is declared absent is refused (R69, R144). -/
def State.refuseAbsent (s : State) (r : RingId) : State :=
  let x := s.ring r
  if x.put.head.isParked && decide (x.config.kind = .message) then s.refuseParked r .consumerAbsent
  else s

/-- The late timer of a ring RUNNING or DRAINING (R143, R144). -/
def State.lateExpiry (s : State) (r : RingId) : State :=
  let x := s.ring r
  if x.state.serving && timerDue s.timebase x.cadence.lateTimer then
    let s := s.cadenceLate r
    if decide (x.occ ≠ 0) && x.declaresAbsent then (s.refuseAbsent r).settle r else s
  else s

/-! ## ALERT_N (R166, R167) -/

/-- The coalescing timer of a period of `p` milliseconds (R166). -/
def coalescingTimer (now : Time) (p : BitVec 8) : Option Timer :=
  if p = 0 then .none else .some (armTimer now (p.toNat * 1000))

/-- RELEASED with a NOTICE flag enabled-pending asserts the line (R166). -/
def State.assertNotice (s : State) : State :=
  if decide (s.driver = .released) && s.noticePending then { s with driver := .asserted } else s

def State.coalescingTick (s : State) : State :=
  if timerDue s.timebase s.coalTimer then
    ({ s with coalTimer := coalescingTimer s.timebase s.period } : State).assertNotice
  else s

/-- The end of the release pulse (R167). -/
def State.endPulse (s : State) : State :=
  match s.driver with
  | .released | .asserted => s
  | .pulse t =>
    if t.due s.timebase then { s with driver := if s.anyPending then .asserted else .released } else s

/-! ## The meanings -/

/-- TIMEBASE_TICK (R137). -/
def execTimebaseTick (s : State) : Answer :=
  .next (s.whileUp (fun s => { s with timebase := s.timebase + 1 }))

/-- PUT_PARK_EXPIRY (R68). -/
def execPutParkExpiry (r : RingId) (s : State) : Answer :=
  .next (s.whileUp (fun s => s.putParkExpiry r))

/-- TAKE_PARK_EXPIRY (R119). -/
def execTakeParkExpiry (r : RingId) (s : State) : Answer :=
  .next (s.whileUp (fun s => s.takeParkExpiry r))

/-- AGE_EXPIRY (R132). -/
def execAgeExpiry (r : RingId) (s : State) : Answer := .next (s.whileUp (fun s => s.ageExpiry r))

/-- SEARCH_TIMER_EXPIRY (R99). -/
def execSearchTimerExpiry (r : RingId) (s : State) : Answer :=
  .next (s.whileUp (fun s => s.searchTimerExpiry r))

/-- ONE_SECOND_BOUNDARY (R140). -/
def execOneSecondBoundary (r : RingId) (s : State) : Answer :=
  .next (s.whileUp (fun s => s.secondBoundary r))

/-- LATE_TIMER_EXPIRY (R143). -/
def execLateTimerExpiry (r : RingId) (s : State) : Answer :=
  .next (s.whileUp (fun s => s.lateExpiry r))

/-- ENTRY_TO_IDLE (R36): the Ring Table's test, as every event that may meet it makes it (log 8). -/
def execEntryToIdle (r : RingId) (s : State) : Answer := .next (s.whileUp (fun s => s.settle r))

/-- SURVEY_INTERVAL_EXPIRY (R151). -/
def execSurveyIntervalExpiry (s : State) : Answer := .next (s.whileUp State.surveyIntervalExpiry)

/-- SYNC_EDGE (R153): the level of the pin changes whatever the part does. -/
def execSyncEdge (rising : Bool) (s : State) : Answer := .next (s.syncEdge rising)

/-- SYNC_DELAY_EXPIRY (R153). -/
def execSyncDelayExpiry (s : State) : Answer := .next (s.whileUp State.syncDelayExpiry)

/-- HOLDOFF_EXPIRY (R154). -/
def execHoldoffExpiry (s : State) : Answer := .next (s.whileUp State.surveyHoldoffExpiry)

/-- COALESCING_TICK (R166). -/
def execCoalescingTick (s : State) : Answer := .next (s.whileUp State.coalescingTick)

/-- PULSE_END (R167). -/
def execPulseEnd (s : State) : Answer := .next (s.whileUp State.endPulse)

end Sys2Proof.Machine
end

