-- ==== Sys2Proof/Machine/Registers.lean ====
section
/-! DEFINITION. The register map (section 11.4): its fields with their access classes, what each reads
as, and what a value written to each does, by the value rules of R17, R24, R147, R148 and R166. -/

namespace Sys2Proof.Machine

/-! ## Names -/

/-- The access classes (table 11.1). -/
inductive Access where
  | ro
  | rw
  | idle
  | cmd
  | w1c
  | en
deriving DecidableEq, Repr

/-- The fields of page 0 (table 11.3). -/
inductive GlobalReg where
  | partCode
  | revision
  | resetCause
  | scratch
  | command
  | result
  | period
  | downTimeout
  | flags
  | enables
  | ringSummary
  | stampFree
  | time
deriving DecidableEq, Repr

/-- The fields of a ring page (table 11.4). -/
inductive RingReg where
  | command
  | result
  | kind
  | putBase
  | takeBase
  | storageBase
  | sizeCode
  | slotCount
  | producer
  | consumer
  | checkMode
  | takeCheck
  | alignMode
  | marker
  | searchTimeout
  | errorThreshold
  | fillWord
  | parkTimeout
  | highMark
  | centre
  | ageLimit
  | cadenceMin
  | cadenceMax
  | absenceLimit
  | guard
  | readout
  | flags
  | enables
  | putRefusal
  | takeRefusal
  | headStamp
  | inTakeStamp
  | bank (i : Fin 15)
deriving DecidableEq, Repr

/-- The fields of page 17 (table 11.10). -/
inductive SurveyReg where
  | source
  | quantity
  | trigger
  | samples
  | interval
  | syncDelay
  | holdoff
  | lowLimit
  | highLimit
  | repeats
  | state
  | resMinimum
  | resMaximum
  | resAverage
  | resLast
  | resCount
  | resLimitExit
deriving DecidableEq, Repr

/-- A field of the map. The page register stands on every page (R173). -/
inductive Reg where
  | page
  | global (g : GlobalReg)
  | ring (r : RingId) (x : RingReg)
  | survey (v : SurveyReg)
deriving DecidableEq, Repr

/-- A field with its lowest subaddress, its number of bytes and its class. -/
structure RegField where
  reg : Reg
  low : Nat
  bytes : Nat
  access : Access
deriving DecidableEq, Repr

/-! ## The map -/

/-- Table 11.3. -/
def globalFields : List RegField :=
  [⟨.global .partCode, 0x01, 2, .ro⟩, ⟨.global .revision, 0x03, 1, .ro⟩,
   ⟨.global .resetCause, 0x04, 1, .ro⟩, ⟨.global .scratch, 0x05, 4, .rw⟩,
   ⟨.global .command, 0x09, 1, .cmd⟩, ⟨.global .result, 0x0A, 1, .ro⟩,
   ⟨.global .period, 0x0B, 1, .rw⟩, ⟨.global .downTimeout, 0x0C, 2, .rw⟩,
   ⟨.global .flags, 0x0E, 1, .w1c⟩, ⟨.global .enables, 0x0F, 1, .en⟩,
   ⟨.global .ringSummary, 0x10, 2, .ro⟩, ⟨.global .stampFree, 0x12, 1, .ro⟩,
   ⟨.global .time, 0x13, 4, .ro⟩]

/-- The command and configuration fields of table 11.4. -/
def ringConfigFields (r : RingId) : List RegField :=
  [⟨.ring r .command, 0x01, 1, .cmd⟩, ⟨.ring r .result, 0x02, 1, .ro⟩,
   ⟨.ring r .kind, 0x03, 1, .idle⟩, ⟨.ring r .putBase, 0x04, 4, .idle⟩,
   ⟨.ring r .takeBase, 0x08, 4, .idle⟩, ⟨.ring r .storageBase, 0x0C, 4, .idle⟩,
   ⟨.ring r .sizeCode, 0x10, 1, .idle⟩, ⟨.ring r .slotCount, 0x11, 2, .idle⟩,
   ⟨.ring r .producer, 0x13, 1, .idle⟩, ⟨.ring r .consumer, 0x14, 1, .idle⟩,
   ⟨.ring r .checkMode, 0x15, 1, .idle⟩, ⟨.ring r .takeCheck, 0x16, 1, .idle⟩,
   ⟨.ring r .alignMode, 0x17, 1, .idle⟩, ⟨.ring r .marker, 0x18, 2, .idle⟩,
   ⟨.ring r .searchTimeout, 0x1A, 2, .idle⟩, ⟨.ring r .errorThreshold, 0x1C, 2, .idle⟩,
   ⟨.ring r .fillWord, 0x1E, 4, .idle⟩, ⟨.ring r .parkTimeout, 0x22, 2, .idle⟩,
   ⟨.ring r .highMark, 0x24, 2, .idle⟩, ⟨.ring r .centre, 0x26, 2, .idle⟩,
   ⟨.ring r .ageLimit, 0x28, 2, .idle⟩, ⟨.ring r .cadenceMin, 0x2A, 3, .idle⟩,
   ⟨.ring r .cadenceMax, 0x2D, 3, .idle⟩, ⟨.ring r .absenceLimit, 0x30, 1, .idle⟩,
   ⟨.ring r .guard, 0x31, 1, .idle⟩]

/-- The fields of table 11.4 that show the ring, its flags and its bank. -/
def ringStateFields (r : RingId) : List RegField :=
  [⟨.ring r .readout, 0x32, 7, .ro⟩, ⟨.ring r .flags, 0x39, 3, .w1c⟩,
   ⟨.ring r .enables, 0x3C, 3, .en⟩, ⟨.ring r .putRefusal, 0x3F, 8, .ro⟩,
   ⟨.ring r .takeRefusal, 0x47, 8, .ro⟩, ⟨.ring r .headStamp, 0x4F, 7, .ro⟩,
   ⟨.ring r .inTakeStamp, 0x56, 7, .ro⟩] ++
    (List.finRange 15).map (fun i => ⟨.ring r (.bank i), 0x5D + 4 * i.val, 4, .ro⟩)

/-- Table 11.10. -/
def surveyFields : List RegField :=
  [⟨.survey .source, 0x01, 1, .idle⟩, ⟨.survey .quantity, 0x02, 1, .idle⟩,
   ⟨.survey .trigger, 0x03, 1, .idle⟩, ⟨.survey .samples, 0x04, 2, .idle⟩,
   ⟨.survey .interval, 0x06, 2, .idle⟩, ⟨.survey .syncDelay, 0x08, 2, .idle⟩,
   ⟨.survey .holdoff, 0x0A, 1, .idle⟩, ⟨.survey .lowLimit, 0x0B, 2, .idle⟩,
   ⟨.survey .highLimit, 0x0D, 2, .idle⟩, ⟨.survey .repeats, 0x0F, 1, .idle⟩,
   ⟨.survey .state, 0x10, 1, .ro⟩, ⟨.survey .resMinimum, 0x11, 2, .ro⟩,
   ⟨.survey .resMaximum, 0x13, 2, .ro⟩, ⟨.survey .resAverage, 0x15, 2, .ro⟩,
   ⟨.survey .resLast, 0x17, 2, .ro⟩, ⟨.survey .resCount, 0x19, 2, .ro⟩,
   ⟨.survey .resLimitExit, 0x1B, 1, .ro⟩]

/-- The page register (R173). -/
def pageRegister : RegField := ⟨.page, 0x00, 1, .rw⟩

/-- The ring of page `p`, p in 1..16 (R173). -/
def pageRing (p : Fin 18) : RingId := ⟨(p.val + 15) % 16, Nat.mod_lt _ (by decide)⟩

/-- The page of ring `r` (R173). -/
def ringPage (r : RingId) : Fin 18 := ⟨r.val + 1, by omega⟩

/-- The survey's page (R173). -/
def surveyPage : Fin 18 := 17

/-- The fields of a page. -/
def pageFields (p : Fin 18) : List RegField :=
  pageRegister ::
    (if p = 0 then globalFields
     else if p = surveyPage then surveyFields
     else ringConfigFields (pageRing p) ++ ringStateFields (pageRing p))

/-- The highest subaddress of a page (tables 11.3, 11.4, 11.10). -/
def pageTop (p : Fin 18) : Nat := if p = 0 then 0x16 else if p = surveyPage then 0x1B else 0x98

/-- The subaddress lies in the field. -/
def RegField.covers (f : RegField) (sub : Nat) : Bool :=
  decide (f.low ≤ sub) && decide (sub < f.low + f.bytes)

/-- The field at a subaddress of a page. -/
def fieldAt (p : Fin 18) (sub : Nat) : Option RegField := (pageFields p).find? (fun f => f.covers sub)

/-! ## Codes (tables 11.3 to 11.10) -/

def CmdResult.code : CmdResult → Nat
  | .none => 0
  | .accepted => 1
  | .wrongState => 2
  | .slotSize => 3
  | .slotCount => 4
  | .apertureAlign => 5
  | .addressWrap => 6
  | .selfOverlap => 7
  | .crossOverlap => 8
  | .kindTimers => 9
  | .pacedMarks => 10
  | .checkSetup => 11
  | .alignSetup => 12
  | .cadenceOrder => 13
  | .noStampSpace => 14

def GlobalResult.code : GlobalResult → Nat
  | .none => 0
  | .accepted => 1
  | .wrongState => 2
  | .badSetup => 3
  | .sourceIdle => 4

def ResetCause.code : ResetCause → Nat
  | .powerOn => 1
  | .line => 2
  | .soft => 3

def Kind.code : Kind → Nat
  | .message => 0
  | .paced => 1

def Filter.code : Filter → Nat
  | .any => 16
  | .only q => q.val

def CheckMode.code : CheckMode → Nat
  | .off => 0
  | .verify => 1
  | .generate => 2

def AlignMode.code : AlignMode → Nat
  | .off => 0
  | .strict => 1
  | .auto => 2

def LossCause.code : LossCause → Nat
  | .none => 0
  | .marker => 1
  | .rate => 2

def CadenceKind.code : CadenceKind → Nat
  | .none => 0
  | .early => 1
  | .late => 2

def CheckState.code : CheckState → Nat
  | .none => 0
  | .verified => 1
  | .generated => 2

/-- Table 11.8. -/
def Cause.code : Cause → Nat
  | .aborting => 1
  | .wrongRequester => 2
  | .mixed => 3
  | .wrongDirection => 4
  | .unusedOffset => 5
  | .partialLanes => 6
  | .overlength => 7
  | .orphanWord => 8
  | .outsideSlot => 9
  | .outOfOrder => 10
  | .restarted => 11
  | .abandoned => 12
  | .queueFull => 13
  | .ringFull => 14
  | .parkExpired => 15
  | .consumerAbsent => 16
  | .draining => 17
  | .downstream => 18
  | .checkMismatch => 19

def Quantity.code : Quantity → Nat
  | .occupancy => 0
  | .dwell => 1

def Trigger.code : Trigger → Nat
  | .timer => 0
  | .syncRise => 1
  | .syncFall => 2
  | .commit => 3
  | .take => 4

def SurveyState.code : SurveyState → Nat
  | .idle => 0
  | .armed => 1
  | .sampling => 2

/-! ## Values read -/

/-- Table 11.6. -/
def Ring.readout (x : Ring) : Nat :=
  packBits
    [(1, 0), (2, x.align.lastLoss.code), (3, x.align.state.code), (2, x.state.code),
     (3, 0), (2, x.cadence.lastKind.code), (1, bit x.cadence.absent), (2, x.paced.code),
     (6, 0), (10, x.t), (5, 0), (11, x.occ), (3, 0), (5, x.blocks.length)]

/-- Table 11.8. -/
def RefusalRecord.readout (f : RefusalRecord) : Nat :=
  let cause := match f.cause with
    | .none => 0
    | .some c => c.code
  packBits [(8, cause), (1, bit f.valid), (3, 0), (4, f.requester.val), (16, f.offset),
    (32, f.time.toNat)]

/-- Table 11.9, of an entry that is present. -/
def Stamp.view (e : Stamp) : Nat :=
  packBits [(1, 1), (1, bit e.gap), (4, 0), (2, e.check.code), (8, e.sequence.toNat),
    (8, e.length.toNat), (32, e.commitTime.toNat)]

/-- The head stamp (R46). -/
def State.headStamp (s : State) (r : RingId) : Nat :=
  if (s.ring r).occ = 0 then 0 else (s.stampAt r (s.ring r).t).view

/-- The in-take stamp (R46). -/
def State.inTakeStamp (s : State) (r : RingId) : Nat :=
  let t := (s.ring r).take.record
  if t.present then (s.stampAt r t.position).view else 0

def State.readGlobal (s : State) (g : GlobalReg) : Nat :=
  match g with
  | .partCode => Config.partCode.toNat
  | .revision => Config.revision.toNat
  | .resetCause => s.port.resetCause.code
  | .scratch => s.port.scratch.toNat
  | .command => s.port.command.toNat
  | .result => s.port.result.code
  | .period => s.period.toNat
  | .downTimeout => s.downTimeout.toNat
  | .flags => s.globalFlags.toNat
  | .enables => s.globalEnables.toNat
  | .ringSummary => s.ringSummary
  | .stampFree => s.freeBlocks.length
  | .time => s.timebase.toNat

def RingConfig.read (c : RingConfig) (x : RingReg) : Option Nat :=
  match x with
  | .kind => .some c.kind.code
  | .putBase => .some c.putBase.toNat
  | .takeBase => .some c.takeBase.toNat
  | .storageBase => .some c.storageBase.toNat
  | .sizeCode => .some c.sizeCode.toNat
  | .slotCount => .some c.slotCount.toNat
  | .producer => .some c.producer.code
  | .consumer => .some c.consumer.code
  | .checkMode => .some c.checkMode.code
  | .takeCheck => .some (bit c.takeCheck)
  | .alignMode => .some c.alignMode.code
  | .marker => .some c.marker.toNat
  | .searchTimeout => .some c.searchTimeout.toNat
  | .errorThreshold => .some c.errorThreshold.toNat
  | .fillWord => .some c.fillWord.toNat
  | .parkTimeout => .some c.parkTimeout.toNat
  | .highMark => .some c.highMark.toNat
  | .centre => .some c.centre.toNat
  | .ageLimit => .some c.ageLimit.toNat
  | .cadenceMin => .some c.cadenceMin.toNat
  | .cadenceMax => .some c.cadenceMax.toNat
  | .absenceLimit => .some c.absenceLimit.toNat
  | .guard => .some (bit c.guard)
  | .command | .result | .readout | .flags | .enables | .putRefusal | .takeRefusal | .headStamp
  | .inTakeStamp | .bank _ => .none

/-- The fields of a ring page beside its configuration. -/
def State.readRingState (s : State) (r : RingId) (x : RingReg) : Nat :=
  let ring := s.ring r
  match x with
  | .command => ring.command.toNat
  | .result => ring.result.code
  | .readout => ring.readout
  | .flags => ring.events.flags.toNat
  | .enables => ring.events.enables.toNat
  | .putRefusal => ring.put.refusal.readout
  | .takeRefusal => ring.take.refusal.readout
  | .headStamp => s.headStamp r
  | .inTakeStamp => s.inTakeStamp r
  | .bank i => ring.events.bank[i].toNat
  | .kind | .putBase | .takeBase | .storageBase | .sizeCode | .slotCount | .producer | .consumer
  | .checkMode | .takeCheck | .alignMode | .marker | .searchTimeout | .errorThreshold | .fillWord
  | .parkTimeout | .highMark | .centre | .ageLimit | .cadenceMin | .cadenceMax | .absenceLimit
  | .guard => 0

def Survey.read (v : Survey) (x : SurveyReg) : Nat :=
  match x with
  | .source => v.setup.source.val
  | .quantity => v.setup.quantity.code
  | .trigger => v.setup.trigger.code
  | .samples => v.setup.samples.toNat
  | .interval => v.setup.interval.toNat
  | .syncDelay => v.setup.syncDelay.toNat
  | .holdoff => bit v.setup.holdoff
  | .lowLimit => v.setup.lowLimit.toNat
  | .highLimit => v.setup.highLimit.toNat
  | .repeats => bit v.setup.repeats
  | .state => v.state.code
  | .resMinimum => v.results.minimum
  | .resMaximum => v.results.maximum
  | .resAverage => v.results.average
  | .resLast => v.results.last
  | .resCount => v.results.count
  | .resLimitExit => bit v.results.limitExit

/-- The value of a field as it stands. -/
def State.readReg (s : State) (reg : Reg) : Nat :=
  match reg with
  | .page => s.port.page.val
  | .global g => s.readGlobal g
  | .ring r x => ((s.ring r).config.read x).getD (s.readRingState r x)
  | .survey v => s.survey.read v

/-- Byte `j` of a value of `n` bytes, the most significant byte first. -/
def byteOf (n v j : Nat) : Byte := BitVec.ofNat 8 (v / 2 ^ (8 * (n - 1 - j)))

/-! ## Values written -/

/-- A value of the kind field's bit 0. -/
def Kind.ofBit (v : Nat) : Kind := if v % 2 = 0 then .message else .paced

/-- A requester field's bits 4..0; none where they name no value. -/
def Filter.ofCode (v : Nat) : Option Filter :=
  let c := v % 32
  if h : c < 16 then .some (.only ⟨c, h⟩) else if c = 16 then .some .any else .none

def CheckMode.ofCode (v : Nat) : Option CheckMode :=
  if v % 4 = 0 then .some .off
  else if v % 4 = 1 then .some .verify
  else if v % 4 = 2 then .some .generate
  else .none

def AlignMode.ofCode (v : Nat) : Option AlignMode :=
  if v % 4 = 0 then .some .off
  else if v % 4 = 1 then .some .strict
  else if v % 4 = 2 then .some .auto
  else .none

/-- A base address with its two least significant bits 0 (table 2.2). -/
def baseOf (v : Nat) : Word := BitVec.ofNat 32 (v / 4 * 4)

/-- A 16-bit value of at most 1000 (table 2.2). -/
def atMost1000 (v : Nat) : Option (BitVec 16) := if 1000 < v then .none else .some (BitVec.ofNat 16 v)

/-- The configuration after a write of value `v` to field `x`; none where table 2.2 refuses it, and for
the fields that are no configuration (R24). -/
def RingConfig.write (c : RingConfig) (x : RingReg) (v : Nat) : Option RingConfig :=
  match x with
  | .kind => .some { c with kind := Kind.ofBit v }
  | .putBase => .some { c with putBase := baseOf v }
  | .takeBase => .some { c with takeBase := baseOf v }
  | .storageBase => .some { c with storageBase := baseOf v }
  | .sizeCode => .some { c with sizeCode := BitVec.ofNat 3 v }
  | .slotCount => .some { c with slotCount := BitVec.ofNat 11 v }
  | .producer => (Filter.ofCode v).map (fun f => { c with producer := f })
  | .consumer => (Filter.ofCode v).map (fun f => { c with consumer := f })
  | .checkMode => (CheckMode.ofCode v).map (fun m => { c with checkMode := m })
  | .takeCheck => .some { c with takeCheck := decide (v % 2 = 1) }
  | .alignMode => (AlignMode.ofCode v).map (fun m => { c with alignMode := m })
  | .marker => .some { c with marker := BitVec.ofNat 16 v }
  | .searchTimeout => (atMost1000 v).map (fun t => { c with searchTimeout := t })
  | .errorThreshold => (atMost1000 v).map (fun t => { c with errorThreshold := t })
  | .fillWord => .some { c with fillWord := BitVec.ofNat 32 v }
  | .parkTimeout => .some { c with parkTimeout := BitVec.ofNat 16 v }
  | .highMark => .some { c with highMark := BitVec.ofNat 11 v }
  | .centre => .some { c with centre := BitVec.ofNat 11 v }
  | .ageLimit => .some { c with ageLimit := BitVec.ofNat 16 v }
  | .cadenceMin => .some { c with cadenceMin := BitVec.ofNat 24 v }
  | .cadenceMax => .some { c with cadenceMax := BitVec.ofNat 24 v }
  | .absenceLimit =>
    if v % 16 = 0 then .none else .some { c with absenceLimit := BitVec.ofNat 4 v }
  | .guard => .some { c with guard := decide (v % 2 = 1) }
  | .command | .result | .readout | .flags | .enables | .putRefusal | .takeRefusal | .headStamp
  | .inTakeStamp | .bank _ => .none

def Quantity.ofCode (v : Nat) : Option Quantity :=
  if v = 0 then .some .occupancy else if v = 1 then .some .dwell else .none

def Trigger.ofCode (v : Nat) : Option Trigger :=
  if v = 0 then .some .timer
  else if v = 1 then .some .syncRise
  else if v = 2 then .some .syncFall
  else if v = 3 then .some .commit
  else if v = 4 then .some .take
  else .none

/-- The survey unit after a write of value `v` to setup field `x`; none where table 9.2 refuses it, and
for the fields that are no setup (R147). A write of samples per cycle zeroes the results. -/
def Survey.write (u : Survey) (x : SurveyReg) (v : Nat) : Option Survey :=
  let c := u.setup
  match x with
  | .source =>
    if h : v < 16 then .some { u with setup := { c with source := ⟨v, h⟩ } } else .none
  | .quantity => (Quantity.ofCode v).map (fun q => { u with setup := { c with quantity := q } })
  | .trigger => (Trigger.ofCode v).map (fun t => { u with setup := { c with trigger := t } })
  | .samples =>
    if v = 0 ∨ 256 < v then .none
    else
      .some { u with
        setup := { c with samples := BitVec.ofNat 16 v }
        results := SurveyResults.zero }
  | .interval =>
    if v = 0 then .none else .some { u with setup := { c with interval := BitVec.ofNat 16 v } }
  | .syncDelay =>
    if 1023 < v then .none
    else .some { u with setup := { c with syncDelay := BitVec.ofNat 16 v } }
  | .holdoff => .some { u with setup := { c with holdoff := decide (v % 2 = 1) } }
  | .lowLimit => .some { u with setup := { c with lowLimit := BitVec.ofNat 16 v } }
  | .highLimit => .some { u with setup := { c with highLimit := BitVec.ofNat 16 v } }
  | .repeats => .some { u with setup := { c with repeats := decide (v % 2 = 1) } }
  | .state | .resMinimum | .resMaximum | .resAverage | .resLast | .resCount | .resLimitExit => .none

/-- A write of the coalescing period (R166): the timer is armed afresh or stopped, and a write of 0 may
assert the line. -/
def State.setPeriod (s : State) (p : BitVec 8) : State :=
  let s : State := { s with period := p, coalTimer := coalescingTimer s.timebase p }
  if p = 0 then s.assertNotice else s

/-- A value written to a field of page 0. -/
def State.writeGlobal (s : State) (g : GlobalReg) (v : Nat) : Option State :=
  match g with
  | .scratch => .some (s.modPort (fun p => { p with scratch := BitVec.ofNat 32 v }))
  | .period => .some (s.setPeriod (BitVec.ofNat 8 v))
  | .downTimeout => if v < 16 then .none else .some { s with downTimeout := BitVec.ofNat 16 v }
  | .partCode | .revision | .resetCause | .command | .result | .flags | .enables | .ringSummary
  | .stampFree | .time => .none

/-- A value written to an RW or IDLE field: the state after, or none where the value is refused. -/
def State.writeReg (s : State) (reg : Reg) (v : Nat) : Option State :=
  match reg with
  | .page => .none
  | .global g => s.writeGlobal g v
  | .ring r x =>
    ((s.ring r).config.write x v).map (fun c => s.modRing r (fun y => { y with config := c }))
  | .survey x => (s.survey.write x v).map (fun u => s.modSurvey (fun _ => u))

/-! ## Classes (R25, R148, R174) -/

/-- The owner of a field is IDLE: the ring on a ring page, the Survey Unit on page 17. -/
def State.ownerIdle (s : State) (reg : Reg) : Bool :=
  match reg with
  | .page => true
  | .global _ => true
  | .ring r _ => decide ((s.ring r).state = .idle)
  | .survey _ => decide (s.survey.state = .idle)

/-- The class of a field lets value `v` be written now. A write that sets repeat to off is acknowledged
in every state (R148). -/
def State.classAllows (s : State) (f : RegField) (v : Nat) : Bool :=
  match f.access with
  | .rw => true
  | .idle => s.ownerIdle f.reg || (decide (f.reg = .survey .repeats) && decide (v % 2 = 0))
  | .ro | .cmd | .w1c | .en => false

/-- A whole value written to an RW or IDLE field, by its class and its value rules (R174). -/
def State.writeField (s : State) (f : RegField) (v : Nat) : Option State :=
  if s.classAllows f v then s.writeReg f.reg v else .none

/-! ## Flags and enables (R163, R164) -/

/-- What one byte at index `j` of a field of `n` bytes carries, in its place. -/
def byteInPlace (n j : Nat) (b : Byte) : Nat := b.toNat * 2 ^ (8 * (n - 1 - j))

/-- A value of `n` bytes with byte `j` replaced. -/
def replaceByte (n j v : Nat) (b : Byte) : Nat :=
  v - byteInPlace n j (byteOf n v j) + byteInPlace n j b

/-- One byte written to a flag field: one clear event (R163). -/
def State.clearByte (s : State) (f : RegField) (j : Nat) (b : Byte) : State :=
  match f.reg with
  | .global .flags => s.clearGlobalFlags (BitVec.ofNat 5 (byteInPlace f.bytes j b))
  | .ring r .flags => s.clearRingFlags r (BitVec.ofNat 18 (byteInPlace f.bytes j b))
  | _ => s

/-- One byte written to an enable field (R164). -/
def State.enableByte (s : State) (f : RegField) (j : Nat) (b : Byte) : State :=
  match f.reg with
  | .global .enables =>
    s.setGlobalEnables (BitVec.ofNat 5 (replaceByte f.bytes j s.globalEnables.toNat b))
  | .ring r .enables =>
    s.setRingEnables r
      (BitVec.ofNat 18 (replaceByte f.bytes j (s.ring r).events.enables.toNat b))
  | _ => s

end Sys2Proof.Machine
end

