-- ==== Sys2Proof/Machine/Resets.lean ====
section
/-! DEFINITION. The resets of the part: power-on, RESET_N and SOFT_RESET (R20 to R22, R47, R48, R137,
R159, R170, R176 to R179). -/

namespace Sys2Proof.Machine

/-! ## SOFT_RESET (R177) -/

/-- The zeroing event of the Event Unit (R170): flags, counters and banks, and the driver RELEASED if
nothing stays enabled-pending. -/
def State.zeroEvents (s : State) : State :=
  (allRings.foldl (fun (s : State) r => s.modEvents r RingEvents.zeroed)
    { s with globalFlags := 0 }).releaseIfNone

/-- The effects of ABORT on a RUNNING or DRAINING ring (R47). -/
def State.softAbort (s : State) (r : RingId) : State :=
  if (s.ring r).state.serving then s.abortRing r else s

/-- An accepted SOFT_RESET (R177): the reset cause, the zeroing, the survey, then the rings in the order
of their numbers (log 7). -/
def State.softReset (s : State) : State :=
  allRings.foldl State.softAbort
    (((s.modPort (fun p => { p with resetCause := .soft })).zeroEvents).modSurvey Survey.stopped)

/-! ## Power-on -/

/-- The part after power-on with the pins presenting `pins` (R20, R48, R137, R159, R170, R179). The
level of SYNC, what the outside has seen and the queue are not the part's to set (log 10). -/
def State.poweredOn (s : State) (pins : BitVec 2) : State :=
  { State.reset with
    syncLevel := s.syncLevel
    port := Port.reset pins
    upResponses := s.upResponses
    downRequests := s.downRequests
    freeCount := s.freeCount
    pending := s.pending }

/-! ## RESET_N (R21, R179) -/

/-- Every request held is answered with ERROR, in the order of the table (R21; log 7). -/
def State.answerAllError (s : State) : State :=
  { s with
    upResponses := s.upResponses ++
      s.outstanding.map (fun e => ⟨e.requester, e.tag, .error, []⟩)
    outstanding := [] }

/-- A tag entry once RESET_N is asserted: BUSY becomes STALE, and its timer stops (R21). -/
def TagEntry.atReset : TagEntry → TagEntry
  | .free => .free
  | .busy _ _ _ _ _ => .stale .none
  | .stale _ => .stale .none

/-- A tag entry at the release: a STALE one has its quarantine armed from the Timebase value 0 (R21). -/
def TagEntry.atRelease : TagEntry → TagEntry
  | .free => .free
  | .busy o q t g timeout => .busy o q t g timeout
  | .stale _ => .stale (.some (armTimer 0 Config.releaseQuarantine))

/-- The port at the assertion: its device address, reset cause and scratch word stay (R176, R179). -/
def Port.atReset (p : Port) : Port :=
  { Port.reset 0 with
    deviceAddress := p.deviceAddress
    resetCause := p.resetCause
    scratch := p.scratch }

/-- The assertion of RESET_N. -/
def State.assertReset (s : State) : State :=
  { State.reset with
    resetN := false
    syncLevel := s.syncLevel
    tags := Vector.ofFn (fun t => s.tags[t].atReset)
    port := s.port.atReset
    upResponses := s.answerAllError.upResponses
    downRequests := s.downRequests
    freeCount := s.freeCount
    pending := s.pending }

/-- The release of RESET_N, with the pins sampled (R21, R137, R171, R176). -/
def State.releaseReset (s : State) (pins : BitVec 2) : State :=
  { s with
    resetN := true
    timebase := 0
    tags := Vector.ofFn (fun t => s.tags[t].atRelease)
    port :=
      { s.port with deviceAddress := (Port.reset pins).deviceAddress, resetCause := .line } }

/-! ## The meanings -/

/-- POWER_ON (R48). -/
def execPowerOn (pins : BitVec 2) (s : State) : Answer := .next (s.poweredOn pins)

/-- RESET_N_ASSERT (R21). -/
def execResetNAssert (s : State) : Answer := .next s.assertReset

/-- RESET_N_RELEASE (R21). With RESET_N high there is no release (log 3). -/
def execResetNRelease (pins : BitVec 2) (s : State) : Answer :=
  .next (if s.resetN then s else s.releaseReset pins)

end Sys2Proof.Machine
end

