-- ==== Sys2Proof/Machine/Port.lean ====
section
/-! DEFINITION. The Management Port (chapter 11): transactions, the judging of a data byte, the staging
buffer, the commands it carries, and reads with their latches. -/

namespace Sys2Proof.Machine

/-! ## Acknowledge bits and the subaddress (R172) -/

/-- The subaddress after a byte: one further within the page, unless it lies above the highest. -/
def Port.nextSub (p : Port) : Byte := if p.sub.toNat ≤ pageTop p.page then p.sub + 1 else p.sub

/-- The end of a data byte: the acknowledge bit, the staging left, the subaddress advanced. -/
def Port.answered (p : Port) (reply : Reply) (staging : Option Staging) : Port :=
  { p with reply := reply, staging := staging, sub := p.nextSub }

/-- A data byte is acknowledged, and any staging ends. -/
def State.portAck (s : State) : State := s.modPort (fun p => p.answered .ack .none)

/-- A data byte is refused, and any staging ends (R174). -/
def State.portNack (s : State) : State := s.modPort (fun p => p.answered .nack .none)

/-- A data byte is acknowledged and held in the staging buffer (R174). -/
def State.portHold (s : State) (st : Staging) : State :=
  s.modPort (fun p => p.answered .ack (.some st))

/-! ## Commands carried by a byte (R177, R178) -/

inductive GlobalCommand where
  | softReset
  | surveyArm
  | surveyDisarm
deriving DecidableEq, Repr

/-- The codes of table 11.2. -/
def GlobalCommand.code : GlobalCommand → Byte
  | .softReset => 1
  | .surveyArm => 2
  | .surveyDisarm => 3

def GlobalCommand.ofCode (b : Byte) : Option GlobalCommand :=
  if b = 1 then .some .softReset
  else if b = 2 then .some .surveyArm
  else if b = 3 then .some .surveyDisarm
  else .none

/-- The outcome of a global command (table 11.2). -/
def State.globalOutcome (s : State) (c : GlobalCommand) : GlobalResult :=
  match c with
  | .softReset => .accepted
  | .surveyArm => s.armResult
  | .surveyDisarm => s.disarmResult

def State.globalEffect (s : State) (c : GlobalCommand) : State :=
  match c with
  | .softReset => s.softReset
  | .surveyArm => s.surveyArm
  | .surveyDisarm => s.surveyDisarm

/-- A global command is taken, and its code and outcome are written (R177; log 21). -/
def State.globalCommand (s : State) (c : GlobalCommand) : State :=
  (s.globalEffect c).modPort (fun p => { p with command := c.code, result := s.globalOutcome c })

/-- The byte at a command field: an unknown code is refused (R27, R177, R178). -/
def State.commandByte (s : State) (f : RegField) (b : Byte) : State :=
  match f.reg with
  | .global .command =>
    match GlobalCommand.ofCode b with
    | .some c => (s.globalCommand c).portAck
    | .none => s.portNack
  | .ring r .command =>
    match RingCommand.ofCode b with
    | .some c => (s.ringCommand r c).portAck
    | .none => s.portNack
  | _ => s.portNack

/-! ## Data bytes (R173, R174) -/

/-- A byte at the page register (R173). -/
def State.pageByte (s : State) (b : Byte) : State :=
  if h : b.toNat < 18 then
    s.modPort (fun p => { p with page := ⟨b.toNat, h⟩, staging := .none, sub := 0x01, reply := .ack })
  else s.portNack

/-- The outcome of a whole value: acknowledged with the field written, or refused. -/
def State.wholeValue (s : State) (f : RegField) (v : Nat) : State :=
  match s.writeField f v with
  | .some s' => s'.portAck
  | .none => s.portNack

/-- The value that bytes spell, first byte most significant. -/
def bytesValue (bs : List Byte) : Nat := bs.foldl (fun v b => v * 256 + b.toNat) 0

/-- The bytes of field `f` held before its byte `j`: none at the first byte, which begins the staging;
behind it the staged ones, if the staging has reached byte `j`. -/
def Port.stagedFor (p : Port) (f : RegField) (j : Nat) : Option (List Byte) :=
  if j = 0 then .some []
  else
    match p.staging with
    | .none => .none
    | .some st =>
      if st.page = p.page ∧ st.low = f.low ∧ st.bytes.length = j then .some st.bytes else .none

/-- Byte `j` of a multi-byte RW or IDLE field (R174): the class is tested at every byte as it arrives
(table 11.1), the value at the last. -/
def State.stagedByte (s : State) (f : RegField) (j : Nat) (b : Byte) : State :=
  match s.port.stagedFor f j with
  | .none => s.portNack
  | .some bs =>
    if f.bytes ≤ j + 1 then s.wholeValue f (bytesValue (bs ++ [b]))
    else if s.classAllows f 0 then s.portHold ⟨s.port.page, f.low, bs ++ [b]⟩
    else s.portNack

/-- Byte `j` of field `f`, by the field's class (R174). -/
def State.fieldByte (s : State) (f : RegField) (j : Nat) (b : Byte) : State :=
  match f.access with
  | .ro => s.portNack
  | .cmd => s.commandByte f b
  | .w1c => (s.clearByte f j b).portAck
  | .en => (s.enableByte f j b).portAck
  | .rw | .idle =>
    if f.reg = .page then s.pageByte b
    else if f.bytes = 1 then s.wholeValue f b.toNat
    else s.stagedByte f j b

/-- The field where the port stands; none above the page's highest subaddress. -/
def State.portField (s : State) : Option RegField := fieldAt s.port.page s.port.sub.toNat

/-- A data byte where the port stands (R172 to R174). -/
def State.dataByte (s : State) (b : Byte) : State :=
  match s.portField with
  | .some f => s.fieldByte f (s.port.sub.toNat - f.low) b
  | .none => s.portNack

/-- A data byte of a write transaction. Outside one the part hears no data byte (R171; log 16). -/
def State.writeByte (s : State) (b : Byte) : State :=
  if s.port.transaction = .write then s.dataByte b else s

/-! ## Commands as rows of their own (R27, R177) -/

/-- The port is in a write transaction and stands at the register. -/
def State.portStandsAt (s : State) (reg : Reg) : Bool :=
  decide (s.port.transaction = .write) && s.portField.any (fun f => decide (f.reg = reg))

/-- The byte that carried a command, acknowledged where the port stood at the command's field (log 16). -/
def State.carriedBy (s : State) (stood : Bool) : State := if stood then s.portAck else s

/-- A ring command taken by the Ring Table (R27). -/
def State.takeRingCommand (s : State) (r : RingId) (c : RingCommand) : State :=
  (s.ringCommand r c).carriedBy (s.portStandsAt (.ring r .command))

/-- A global command taken (R177). -/
def State.takeGlobalCommand (s : State) (c : GlobalCommand) : State :=
  (s.globalCommand c).carriedBy (s.portStandsAt (.global .command))

/-! ## Transactions (R171) -/

/-- The bus ends a transaction: start or stop condition. -/
def Port.ended (p : Port) : Port := { p with transaction := .none, staging := .none, reply := .none }

/-- An address byte after a start condition. -/
def State.address (s : State) (addr : BitVec 7) (read : Bool) : State :=
  s.modPort (fun p =>
    if s.resetN && addr == p.deviceAddress then
      { p.ended with transaction := if read then .read else .awaitSub, reply := .ack }
    else p.ended)

/-- The first byte of a write transaction after its address byte. -/
def State.subaddress (s : State) (b : Byte) : State :=
  if s.port.transaction = .awaitSub then
    s.modPort (fun p =>
      { p with sub := b, staging := .none, transaction := .write, reply := .ack })
  else s

/-! ## Reads (R172, R175) -/

/-- The key of a field's latch. -/
def latchKey (page : Fin 18) (f : RegField) : Nat := page.val * 256 + f.low

/-- A field of one byte has no latch; the first byte of a longer one fills it. -/
def State.latch (s : State) (f : RegField) (j : Nat) : State :=
  if f.bytes = 1 ∨ j ≠ 0 then s
  else
    s.modPort (fun p =>
      { p with
        latches := sparsePut 0 p.latches (latchKey p.page f) (BitVec.ofNat 64 (s.readReg f.reg)) })

/-- Byte `j` of field `f` as the port sends it, once the latch has been filled. -/
def State.byteSent (s : State) (f : RegField) (j : Nat) : Byte :=
  if f.bytes = 1 then byteOf 1 (s.readReg f.reg) 0
  else byteOf f.bytes (sparseGet 0 s.port.latches (latchKey s.port.page f)).toNat j

/-- The port sends byte `b`; the controller's NACK ends the transfer (R171). -/
def Port.sent (p : Port) (b : Byte) (ack : Bool) : Port :=
  { p with reply := .sent b, sub := p.nextSub, transaction := if ack then .read else .none }

/-- One byte of a read transaction. -/
def State.readByte (s : State) (ack : Bool) : State :=
  if s.port.transaction = .read then
    match s.portField with
    | .none => s.modPort (fun p => p.sent 0xFF ack)
    | .some f =>
      let j := s.port.sub.toNat - f.low
      let s := s.latch f j
      s.modPort (fun p => p.sent (s.byteSent f j) ack)
  else s

/-! ## The meanings -/

/-- START (R29, R31). -/
def execStart (r : RingId) (s : State) : Answer :=
  .next (s.whileUp (fun s => s.takeRingCommand r .start))

/-- STOP (R32). -/
def execStop (r : RingId) (s : State) : Answer :=
  .next (s.whileUp (fun s => s.takeRingCommand r .stop))

/-- ABORT (R34). -/
def execAbort (r : RingId) (s : State) : Answer :=
  .next (s.whileUp (fun s => s.takeRingCommand r .abort))

/-- FLUSH (R37). -/
def execFlush (r : RingId) (s : State) : Answer :=
  .next (s.whileUp (fun s => s.takeRingCommand r .flush))

/-- SNAPSHOT (R38). -/
def execSnapshot (r : RingId) (s : State) : Answer :=
  .next (s.whileUp (fun s => s.takeRingCommand r .snapshot))

/-- SOFT_RESET (R177). -/
def execSoftReset (s : State) : Answer := .next (s.whileUp (fun s => s.takeGlobalCommand .softReset))

/-- SURVEY_ARM (R149). -/
def execSurveyArm (s : State) : Answer := .next (s.whileUp (fun s => s.takeGlobalCommand .surveyArm))

/-- SURVEY_DISARM (R150). -/
def execSurveyDisarm (s : State) : Answer :=
  .next (s.whileUp (fun s => s.takeGlobalCommand .surveyDisarm))

/-- FLAG_CLEAR (R163): the data byte at a flag field. -/
def execFlagClear (b : Byte) (s : State) : Answer := .next (s.whileUp (fun s => s.writeByte b))

/-- ENABLE_WRITE (R164): the data byte at an enable field. -/
def execEnableWrite (b : Byte) (s : State) : Answer := .next (s.whileUp (fun s => s.writeByte b))

/-- ADDRESS_BYTE (R171). -/
def execAddressByte (addr : BitVec 7) (read : Bool) (s : State) : Answer := .next (s.address addr read)

/-- STOP_CONDITION (R171). -/
def execStopCondition (s : State) : Answer := .next (s.modPort Port.ended)

/-- SUBADDRESS_BYTE (R171). -/
def execSubaddressByte (b : Byte) (s : State) : Answer := .next (s.whileUp (fun s => s.subaddress b))

/-- PAGE_REGISTER_WRITE (R173): the data byte at subaddress 0x00. -/
def execPageRegisterWrite (b : Byte) (s : State) : Answer := .next (s.whileUp (fun s => s.writeByte b))

/-- DOWNSTREAM_TIMEOUT_WRITE (R17): the data byte at a byte of the downstream timeout. -/
def execDownstreamTimeoutWrite (b : Byte) (s : State) : Answer :=
  .next (s.whileUp (fun s => s.writeByte b))

/-- COALESCING_PERIOD_WRITE (R166): the data byte at the coalescing period. -/
def execCoalescingPeriodWrite (b : Byte) (s : State) : Answer :=
  .next (s.whileUp (fun s => s.writeByte b))

/-- SAMPLES_PER_CYCLE_WRITE (R147): the data byte at a byte of samples per cycle. -/
def execSamplesPerCycleWrite (b : Byte) (s : State) : Answer :=
  .next (s.whileUp (fun s => s.writeByte b))

/-- REGISTER_WRITE (R174): the data byte at any other field. -/
def execRegisterWrite (b : Byte) (s : State) : Answer := .next (s.whileUp (fun s => s.writeByte b))

/-- FIELD_READ_LATCH (R175): one byte of a read transaction. -/
def execFieldReadLatch (ack : Bool) (s : State) : Answer := .next (s.whileUp (fun s => s.readByte ack))

end Sys2Proof.Machine
end

