-- ==== Sys2Proof/Machine/Dispatch.lean ====
section
/-! DEFINITION. The meaning of every command: one arm for each constructor of Instr. -/

namespace Sys2Proof.Machine

def exec (i : Instr) (s : State) : Host.Outcome State Fault Refusal :=
  match i with
  | .powerOn pins => Sys2Proof.Machine.execPowerOn pins s
  | .resetNAssert => Sys2Proof.Machine.execResetNAssert s
  | .resetNRelease pins => Sys2Proof.Machine.execResetNRelease pins s
  | .timebaseTick => Sys2Proof.Machine.execTimebaseTick s
  | .upstreamRequest q => Sys2Proof.Machine.execUpstreamRequest q s
  | .downstreamIssue => Sys2Proof.Machine.execDownstreamIssue s
  | .downstreamResponse tag status data => Sys2Proof.Machine.execDownstreamResponse tag status data s
  | .responseTimeout tag => Sys2Proof.Machine.execResponseTimeout tag s
  | .quarantineExpiry tag => Sys2Proof.Machine.execQuarantineExpiry tag s
  | .putParkExpiry r => Sys2Proof.Machine.execPutParkExpiry r s
  | .takeParkExpiry r => Sys2Proof.Machine.execTakeParkExpiry r s
  | .ageExpiry r => Sys2Proof.Machine.execAgeExpiry r s
  | .searchTimerExpiry r => Sys2Proof.Machine.execSearchTimerExpiry r s
  | .oneSecondBoundary r => Sys2Proof.Machine.execOneSecondBoundary r s
  | .lateTimerExpiry r => Sys2Proof.Machine.execLateTimerExpiry r s
  | .entryToIdle r => Sys2Proof.Machine.execEntryToIdle r s
  | .start r => Sys2Proof.Machine.execStart r s
  | .stop r => Sys2Proof.Machine.execStop r s
  | .abort r => Sys2Proof.Machine.execAbort r s
  | .flush r => Sys2Proof.Machine.execFlush r s
  | .snapshot r => Sys2Proof.Machine.execSnapshot r s
  | .softReset => Sys2Proof.Machine.execSoftReset s
  | .surveyArm => Sys2Proof.Machine.execSurveyArm s
  | .surveyDisarm => Sys2Proof.Machine.execSurveyDisarm s
  | .surveyIntervalExpiry => Sys2Proof.Machine.execSurveyIntervalExpiry s
  | .syncEdge rising => Sys2Proof.Machine.execSyncEdge rising s
  | .syncDelayExpiry => Sys2Proof.Machine.execSyncDelayExpiry s
  | .holdoffExpiry => Sys2Proof.Machine.execHoldoffExpiry s
  | .coalescingTick => Sys2Proof.Machine.execCoalescingTick s
  | .pulseEnd => Sys2Proof.Machine.execPulseEnd s
  | .flagClear b => Sys2Proof.Machine.execFlagClear b s
  | .enableWrite b => Sys2Proof.Machine.execEnableWrite b s
  | .addressByte addr read => Sys2Proof.Machine.execAddressByte addr read s
  | .stopCondition => Sys2Proof.Machine.execStopCondition s
  | .subaddressByte b => Sys2Proof.Machine.execSubaddressByte b s
  | .pageRegisterWrite b => Sys2Proof.Machine.execPageRegisterWrite b s
  | .downstreamTimeoutWrite b => Sys2Proof.Machine.execDownstreamTimeoutWrite b s
  | .coalescingPeriodWrite b => Sys2Proof.Machine.execCoalescingPeriodWrite b s
  | .samplesPerCycleWrite b => Sys2Proof.Machine.execSamplesPerCycleWrite b s
  | .registerWrite b => Sys2Proof.Machine.execRegisterWrite b s
  | .fieldReadLatch ack => Sys2Proof.Machine.execFieldReadLatch ack s

end Sys2Proof.Machine
end

