-- ==== Sys2Proof/Machine/Step.lean ====
section
/-! DEFINITION. One step: the command at the front of the queue is taken and run. -/

namespace Sys2Proof.Machine

/-- The command at the front of the queue runs with the queue's rest; on an empty queue the part idles
(log 1). -/
def step (s : State) : Host.Outcome State Fault Refusal :=
  match s.pending with
  | [] => .next s
  | c :: rest => exec c { s with pending := rest }

/-- `s` with the command that the word spells put at the front of its queue; unchanged where it spells
none (log 1). -/
def State.withFetchWord (s : State) (nbits w : Nat) : State :=
  match decodeTableWord nbits w with
  | .none => s
  | .some c => { s with pending := c :: s.pending }

end Sys2Proof.Machine
end

