-- ==== Sys2Proof/Safety.lean ====
section
/-! DEFINITION. The words that claims about the part are made of: that a step goes on; the
invariants of its tables, its stamp pool, its positions and its interrupt line; and, in the spec's terms,
what a ring or an engine is after each kind of event. -/

namespace Sys2Proof.Machine

/-- The step ends in neither a fault nor a refusal. -/
def Goes (s : State) : Prop := ∃ t, step s = .next t

/-- An invariant that every step keeps. -/
def KeptByEveryStep (inv : State → Prop) : Prop := ∀ s t, inv s → step s = .next t → inv t

/-- The two stores held by address are in their canonical form. -/
def StoresCanonical (s : State) : Prop := SparseWf Stamp.zero s.stamps ∧ SparseWf 0 s.port.latches

/-- The outstanding-request table (R2): at most 8 entries per requester, and no pair twice. -/
def TableSound (s : State) : Prop :=
  (∀ q, s.outstandingOf q ≤ Config.requesterLimit) ∧
    s.outstanding.Pairwise (fun a b => ¬(a.requester = b.requester ∧ a.tag = b.tag))

/-- The Stamp Pool (R44): each ring's list ascends and names blocks 0..63, no block is held by two
rings, and an IDLE ring holds none. -/
def PoolSound (s : State) : Prop :=
  (∀ r, (s.ring r).blocks.Pairwise (· < ·) ∧ ∀ b ∈ (s.ring r).blocks, b < Config.stampBlocks) ∧
    (∀ r q b, b ∈ (s.ring r).blocks → b ∈ (s.ring q).blocks → r = q) ∧
    ∀ r, (s.ring r).state = .idle → (s.ring r).blocks = []

/-- Stamp blocks held by all the rings together. -/
def State.heldBlocks (s : State) : Nat := (allRings.map (fun r => (s.ring r).blocks.length)).sum

/-- Positions held in the roles of table 2.8 but the retained one. -/
def Ring.heldPositions (x : Ring) : Nat :=
  x.occ + bit x.take.record.present + bit x.put.slotOpen

/-- The positions of an active ring (R40, R43, R57, R125, R133). The open slot stands at (t+occ) mod N. On
a MESSAGE ring the roles fit in N, the in-take slot is the one before t, and nothing ages out; on a PACED
ring occ is at most H, with the marks as START has tested them, and from t on the published positions and
the open one come before the in-take one. -/
def Ring.positionsSound (x : Ring) : Prop :=
  x.t < x.config.slots ∧
    (x.put.slotOpen = true → x.put.position = (x.t + x.occ) % x.config.slots) ∧
    match x.config.kind with
    | .message =>
      x.heldPositions ≤ x.config.slots ∧ x.ageTimer = .none ∧
        (x.take.record.present = true →
          x.take.record.position = (x.t + x.config.slots - 1) % x.config.slots)
    | .paced =>
      x.occ ≤ x.config.highMark.toNat ∧ x.config.highMark.toNat + 2 ≤ x.config.slots ∧
        1 ≤ x.config.centre.toNat ∧ x.config.centre.toNat + 1 ≤ x.config.highMark.toNat ∧
        (x.take.record.present = true → x.take.record.position < x.config.slots ∧
          x.occ + bit x.put.slotOpen ≤
            (x.take.record.position + x.config.slots - x.t) % x.config.slots)

/-- The positions of every ring: sound while it is active; while it is IDLE nothing is published,
parked or waiting, and none of its requests is with the Memory Port. -/
def PositionsSound (s : State) : Prop :=
  ∀ r,
    if (s.ring r).state = .idle then
      (s.ring r).occ = 0 ∧ (s.ring r).put.head = .clear ∧ (s.ring r).take.head = .clear ∧
        s.downstreamClear r = true
    else (s.ring r).positionsSound

/-- No position has two of the roles published, open and in-take, and on a PACED ring the retained
position is neither published nor open (R43, R126). -/
def Ring.PositionsApart (x : Ring) : Prop :=
  (∀ j k, j < k → k < x.occ → (x.t + j) % x.config.slots ≠ (x.t + k) % x.config.slots) ∧
    (x.put.slotOpen = true → ∀ j < x.occ, x.put.position ≠ (x.t + j) % x.config.slots) ∧
    (x.take.record.present = true →
      (∀ j < x.occ, x.take.record.position ≠ (x.t + j) % x.config.slots) ∧
        (x.put.slotOpen = true → x.take.record.position ≠ x.put.position)) ∧
    (x.config.kind = .paced →
      (∀ j < x.occ, (x.t + x.config.slots - 1) % x.config.slots ≠ (x.t + j) % x.config.slots) ∧
        (x.put.slotOpen = true → (x.t + x.config.slots - 1) % x.config.slots ≠ x.put.position))

/-- The regions of the active rings (R29, R30): an active ring has slots, and no range of it shares a
byte with another of its own ranges or with any range of another active ring. -/
def RegionsSound (s : State) : Prop :=
  (∀ r, (s.ring r).state ≠ .idle →
    2 ≤ (s.ring r).config.slots ∧ (s.ring r).config.selfOverlap = false) ∧
    ∀ r q, r ≠ q → (s.ring r).state ≠ .idle → (s.ring q).state ≠ .idle →
      (s.ring r).config.crossOverlap (s.ring q).config = false

/-- Some URGENT flag is enabled-pending: the bits of class URGENT in tables 10.1 and 10.2, at their places
in tables 11.7 and 11.3. -/
def State.urgentPending (s : State) : Bool :=
  (s.globalPending &&& 11#5) != 0 ||
    allRings.any (fun r => ((s.ring r).events.pending &&& 0x1C1B6#18) != 0)

/-- Some NOTICE flag is enabled-pending: the other bits of those tables. -/
def State.noticeWaits (s : State) : Bool :=
  (s.globalPending &&& 20#5) != 0 ||
    allRings.any (fun r => ((s.ring r).events.pending &&& 0x23E49#18) != 0)

/-- The line (R165, R166): RELEASED when nothing is enabled-pending; never RELEASED while an URGENT flag
is, nor, with a coalescing period of 0, while a NOTICE flag is. -/
def LineSound (s : State) : Prop :=
  (s.anyPending = false → s.driver = .released) ∧
    (s.urgentPending = true → s.driver ≠ .released) ∧
    (s.period = 0 → s.noticeWaits = true → s.driver ≠ .released)

/-- No ring's entry to IDLE is overdue: the first test at which its drain or abort condition holds is
the entry (R33, R35). -/
def NoRingOverdue (s : State) : Prop := ∀ r, s.idleCondition r = false

/-! ## Words for claims about commands -/

/-- The link offers a request that is accepted and is no tag clash (R1, R3). -/
def State.takesIn (s : State) (q : UpRequest) : Prop :=
  q.wellFormed = true ∧ s.accepts q.requester = true ∧ s.pairHeld q.requester q.tag = false

/-- The entry that an accepted request holds (R2). -/
def entryOf (q : UpRequest) : OutEntry := ⟨q.requester, q.tag, q.dir, q.count⟩

/-- The outcome of checks made in order: that of the first whose condition holds, else `pass`. -/
def firstOf {α : Type} (pass : α) : List (Prop × α) → α → Prop
  | [], a => a = pass
  | (p, e) :: rest, a => (p → a = e) ∧ (¬p → firstOf pass rest a)

/-- The ring's events after a report of the flag with bit `mask` (table 11.7) and an advance by `n` of the
counter of index `i` (table 10.4). -/
def RingEvents.report (e : RingEvents) (mask : BitVec 18) (i : Fin 15) (n : Nat) : RingEvents :=
  { e with
    flags := e.flags ||| mask
    counters := e.counters.set i (advanceCounter e.counters[i] n) }

/-- The responses are returned, in this order, and their entries leave the table (R2). -/
def State.answered (s : State) (answers : List UpResponse) : State :=
  { s with
    upResponses := s.upResponses ++ answers
    outstanding := s.outstanding.filter
      (fun e => answers.all (fun a => !(e.requester == a.requester && e.tag == a.tag))) }

/-- The port once the byte that carried a command at `reg` has been answered (log 16). -/
def State.commandPort (s : State) (reg : Reg) : Port :=
  if s.portStandsAt reg then s.port.answered .ack .none else s.port

/-- No downstream request of the ring is BUSY, and none waits in the issue queue (R33 part 5, R35). -/
def State.noDownstream (s : State) (r : RingId) : Prop :=
  (∀ i : DTag, s.tags[i].busyOf r = false) ∧ ∀ i ∈ s.issueQueue, i.owner.ofRing r = false

/-- The five parts of the drain condition (R33). -/
def State.drained (s : State) (r : RingId) : Prop :=
  (s.ring r).put.phase = .none ∧ (s.ring r).occ = 0 ∧ (s.ring r).take.record.present = false ∧
    (s.ring r).put.hold = [] ∧ (s.ring r).take.hold = [] ∧ s.noDownstream r

/-- What ABORT and the entry to IDLE of ring `r` do to the survey (R158); that the accumulators discarded
then are 0 is the model's choice (log 24). -/
def SourceLost (s t : State) (r : RingId) : Prop :=
  (s.survey.state ≠ .idle ∧ s.survey.setup.source = r →
    t.survey = { s.survey with
      state := .idle
      acc := Accumulators.zero
      delayTimer := .none
      intervalTimer := .none } ∧
    t.globalFlags = s.globalFlags ||| 4#5) ∧
  (¬(s.survey.state ≠ .idle ∧ s.survey.setup.source = r) →
    t.survey = s.survey ∧ t.globalFlags = s.globalFlags)

/-- The ring once it has entered IDLE (R36). -/
def Ring.atIdle (x : Ring) : Ring :=
  { x with
    state := .idle
    occ := 0
    retained := false
    paced := .none
    blocks := []
    align := { x.align with state := .off, searchTimer := .none }
    cadence := { x.cadence with absent := false, lateTimer := .none }
    ageTimer := .none
    secondTimer := .none
    put := { x.put with head := .clear }
    take := { x.take with head := .clear }
    events := { x.events with flags := x.events.flags ||| 0x20000#18 } }

/-- No downstream request of ring `r` is left but the one under tag `i` (R33 part 5, R35). -/
def State.noOtherDownstream (s : State) (r : RingId) (i : DTag) : Prop :=
  (∀ j : DTag, j ≠ i → s.tags[j].busyOf r = false) ∧ ∀ d ∈ s.issueQueue, d.owner.ofRing r = false

/-- The event that answers tag `i` has brought ring `r` to `y`; where its drain or abort condition holds
then, the ring has entered IDLE at the end of the event (R33, R35, R36). -/
def SettledAt (s t : State) (r : RingId) (i : DTag) (y : Ring) : Prop :=
  ∀ enters : Prop,
    (enters ↔ s.noOtherDownstream r i ∧ (y.state = .aborting ∨
      (y.state = .draining ∧ y.put.phase = .none ∧ y.occ = 0 ∧ y.take.record.present = false ∧
        y.put.hold = [] ∧ y.take.hold = []))) →
    (enters → t.ring r = y.atIdle ∧ SourceLost s t r) ∧
      (¬enters → t.ring r = y ∧ t.survey = s.survey ∧ t.globalFlags = s.globalFlags)

/-- A sample of value `n` taken at `now` by a unit at `v`, with the global flags at `flags`, leaves the
unit at `v'` and the flags at `flags'` (R154 to R157). That the accumulators of a cycle that has ended by
count or by limit keep their values is the model's choice (log 24). -/
def SampledTo (v : Survey) (flags : BitVec 5) (now : Time) (n : Nat) (v' : Survey)
    (flags' : BitVec 5) : Prop :=
  ∀ (acc : Accumulators) (results : SurveyResults) (again : Option Timer),
    acc = ⟨v.acc.count + 1,
      if v.acc.count = 0 then n else min v.acc.minimum n,
      if v.acc.count = 0 then n else max v.acc.maximum n,
      v.acc.sum + n, n⟩ →
    results = ⟨acc.minimum, acc.maximum, acc.sum / acc.count, acc.last, acc.count, false⟩ →
    again = some ⟨now, v.setup.interval.toNat⟩ →
    (n < v.setup.lowLimit.toNat ∨ v.setup.highLimit.toNat < n →
      flags' = flags ||| 8#5 ∧
      v' = { v with
        state := .idle
        acc := acc
        delayTimer := none
        intervalTimer := none
        results := { results with limitExit := true } }) ∧
    (v.setup.lowLimit.toNat ≤ n → n ≤ v.setup.highLimit.toNat →
      (acc.count < v.setup.samples.toNat → flags' = flags ∧
        v' = if v.setup.trigger = .commit ∨ v.setup.trigger = .take then { v with acc := acc }
          else
            { v with state := .sampling, acc := acc, delayTimer := none, intervalTimer := again }) ∧
      (v.setup.samples.toNat ≤ acc.count → v.setup.repeats = false →
        flags' = flags ||| 16#5 ∧
        v' = { v with
          state := .idle
          acc := acc
          delayTimer := none
          intervalTimer := none
          results := results }) ∧
      (v.setup.samples.toNat ≤ acc.count → v.setup.repeats = true → flags' = flags ∧
        v' = { v with
          state :=
            if (v.setup.trigger = .syncRise ∨ v.setup.trigger = .syncFall) ∧
              v.setup.holdoff = false then .armed
            else .sampling
          acc := Accumulators.zero
          delayTimer := none
          intervalTimer :=
            if v.setup.trigger = .timer ∨
              ((v.setup.trigger = .syncRise ∨ v.setup.trigger = .syncFall) ∧
                v.setup.holdoff = true) then again
            else none
          results := results }))

/-- The edge or level `high` is of the polarity that the SYNC trigger selects (R153). -/
def SurveySetup.selects (c : SurveySetup) (high : Bool) : Prop :=
  (c.trigger = .syncRise ∧ high = true) ∨ (c.trigger = .syncFall ∧ high = false)

/-! ### The ranges and the checks of START (R29, R30) -/

/-- Byte address `a` lies in the put aperture of a ring so configured. -/
def RingConfig.inPut (c : RingConfig) (a : Nat) : Prop :=
  c.putBase.toNat ≤ a ∧ a < c.putBase.toNat + 8 * c.slotWords

/-- Byte address `a` lies in the take aperture. -/
def RingConfig.inTake (c : RingConfig) (a : Nat) : Prop :=
  c.takeBase.toNat ≤ a ∧ a < c.takeBase.toNat + 8 * c.slotWords

/-- Byte address `a` lies in the storage, guarded or not. -/
def RingConfig.inStorage (c : RingConfig) (a : Nat) : Prop :=
  c.storageBase.toNat ≤ a ∧ a < c.storageBase.toNat + 4 * c.slots * c.slotWords

/-- Byte address `a` lies in one of the three ranges. -/
def RingConfig.inRanges (c : RingConfig) (a : Nat) : Prop := c.inPut a ∨ c.inTake a ∨ c.inStorage a

/-- Table 2.6: each failing condition with its result, in order. -/
def State.startChecks (s : State) (r : RingId) : List (Prop × CmdResult) :=
  let c := (s.ring r).config
  let bytes := 8 * c.slotWords
  [((s.ring r).state ≠ .idle, .wrongState),
   (c.sizeCode = 7, .slotSize),
   ((c.kind = .message ∧ ¬(2 ≤ c.slots ∧ c.slots ≤ 1024)) ∨
     (c.kind = .paced ∧ ¬(4 ≤ c.slots ∧ c.slots ≤ 1024)), .slotCount),
   (¬bytes ∣ c.putBase.toNat ∨ ¬bytes ∣ c.takeBase.toNat, .apertureAlign),
   (0xFFFFFFFF < c.putBase.toNat + bytes - 1 ∨ 0xFFFFFFFF < c.takeBase.toNat + bytes - 1 ∨
     0xFFFFFFFF < c.storageBase.toNat + 4 * c.slots * c.slotWords - 1, .addressWrap),
   (∃ a, (c.inPut a ∧ c.inTake a) ∨ (c.inPut a ∧ c.inStorage a) ∨ (c.inTake a ∧ c.inStorage a),
     .selfOverlap),
   (∃ q, q ≠ r ∧ (s.ring q).state ≠ .idle ∧ ∃ a, c.inRanges a ∧ (s.ring q).config.inRanges a,
     .crossOverlap),
   ((c.kind = .paced ∧ c.parkTimeout ≠ 0) ∨ (c.kind = .message ∧ c.ageLimit ≠ 0), .kindTimers),
   (c.kind = .paced ∧ (¬(2 ≤ c.highMark.toNat ∧ c.highMark.toNat ≤ c.slots - 2) ∨
     ¬(1 ≤ c.centre.toNat ∧ c.centre.toNat ≤ c.highMark.toNat - 1)), .pacedMarks),
   (c.takeCheck = true ∧ c.checkMode = .off, .checkSetup),
   ((c.alignMode ≠ .off ∧ c.errorThreshold = 0) ∨ (c.alignMode = .auto ∧ c.searchTimeout = 0),
     .alignSetup),
   (c.cadenceMin ≠ 0 ∧ c.cadenceMax ≠ 0 ∧ c.cadenceMax < c.cadenceMin, .cadenceOrder),
   (s.freeBlocks.length < (c.slots + 63) / 64, .noStampSpace)]

/-! ### Requests that an engine judges at once -/

/-- The request is accepted, lies at offset `k` of the put aperture of ring `r`, passes R9, and carries
words or ABANDON; the Put Engine can judge it at once (R52). -/
def State.reachesPut (s : State) (q : UpRequest) (r : RingId) (k : Nat) : Prop :=
  s.takesIn q ∧ s.classify q = .put r k ∧ (s.ring r).putCheck q k = .none ∧ q.dir = .write ∧
    (s.ring r).put.hold = [] ∧ (s.ring r).put.phase ≠ .committing

/-- The request as the Put Engine holds it. -/
def putReqOf (q : UpRequest) (k : Nat) (body : PutBody) : PutReq := ⟨q.requester, q.tag, k, body⟩

/-- The request is accepted, lies at offset `k` of the take aperture of ring `r`, passes R9, and is a
data-half read or RELEASE; the Take Engine can judge it at once (R107). -/
def State.reachesTake (s : State) (q : UpRequest) (r : RingId) (k : Nat) : Prop :=
  s.takesIn q ∧ s.classify q = .take r k ∧ (s.ring r).takeCheckCause q k = .none ∧
    k ≤ (s.ring r).config.slotWords ∧ (s.ring r).take.hold = []

/-- U for a header `h` on a ring so configured, L + T (R49). -/
def RingConfig.lastOf (c : RingConfig) (h : Word) : Nat :=
  (h.extractLsb' 0 8).toNat + if c.checkMode = .off then 0 else 1

/-- Room for a new slot (R57). -/
def Ring.roomFor (x : Ring) : Prop :=
  x.config.kind = .paced ∨
    x.occ + (if x.take.record.present then 1 else 0) + 1 ≤ x.config.slots

/-- The generation that the next header would take is clear of the torn-write list (R58). -/
def PutEngine.generationClear (p : PutEngine) : Prop :=
  ∀ e ∈ p.torn, e.generation ≠ p.generation + 1

/-! ### A queue behind a head that leaves it (R52, R107) -/

/-- Table 3.4: the flag bit (table 11.7) and the counter index (table 10.4) of a put cause. -/
def Cause.putBits : Cause → BitVec 18 × Fin 15
  | .queueFull | .ringFull | .parkExpired | .consumerAbsent | .draining => (0x40#18, 4)
  | .downstream => (0x8000#18, 14)
  | .checkMismatch => (0x10#18, 1)
  | .aborting | .wrongRequester | .mixed | .wrongDirection | .unusedOffset | .partialLanes
  | .overlength | .orphanWord | .outsideSlot | .outOfOrder | .restarted | .abandoned => (0x80#18, 5)

/-- The ring once request `p` has been refused with cause `c` (R71, R72). -/
def Ring.refusedWith (x : Ring) (p : PutReq) (c : Cause) (now : Time) : Ring :=
  { x with
    put := { x.put with refusal := ⟨some c, p.requester, p.offset, now, true⟩ }
    events := x.events.report c.putBits.1 c.putBits.2 1 }

/-- What judging makes of request `p` on a ring with no slot open that has no room or drains: none where it
parks, else the cause of its refusal, or none for ABANDON, which is answered OK (R55, R57, R59, R65, R66). -/
def Ring.fullVerdict (x : Ring) (p : PutReq) : Option (Option Cause) :=
  match p.body with
  | .abandon => some none
  | .words ws =>
    if p.offset ≠ 0 then some (some .orphanWord)
    else if x.config.slotWords < 1 + x.config.lastOf (ws.headD 0) then some (some .overlength)
    else if x.state = .draining then some (some .draining)
    else if x.config.lastOf (ws.headD 0) < ws.length - 1 then some (some .outsideSlot)
    else if x.cadence.absent = true then some (some .consumerAbsent)
    else if x.config.parkTimeout = 0 then some (some .ringFull)
    else none

/-- The ring, with no slot open and no room or draining, once the queue has been judged from its head, and
the answers given: entry by entry, up to a header that parks, which stays at the head with what is behind it
(R52). -/
def Ring.queueJudged (x : Ring) (now : Time) : List PutReq → Ring × List UpResponse
  | [] => ({ x with put := { x.put with hold := [], head := .clear } }, [])
  | p :: rest =>
    match x.fullVerdict p with
    | none =>
      ({ x with put :=
          { x.put with hold := p :: rest, head := .parked ⟨now, x.config.parkTimeout.toNat⟩ } }, [])
    | some none =>
      let next := x.queueJudged now rest
      (next.1, ⟨p.requester, p.tag, .ok, []⟩ :: next.2)
    | some (some c) =>
      let next := (x.refusedWith p c now).queueJudged now rest
      (next.1, ⟨p.requester, p.tag, .error, []⟩ :: next.2)

/-- The ring, a MESSAGE ring with nothing published and no take, once the take hold queue has been judged
from its head, and the answers given: fill words for each entry, the one fill word for RELEASE, up to an
offset-0 read that parks, which stays at the head with what is behind it (R107, R109, R117 to R119). -/
def Ring.readsJudged (x : Ring) (now : Time) : List TakeReq → Ring × List UpResponse
  | [] => ({ x with take := { x.take with hold := [], head := .clear } }, [])
  | p :: rest =>
    if p.release = false ∧ p.offset = 0 ∧ x.config.parkTimeout ≠ 0 ∧ x.state = .running then
      ({ x with take :=
          { x.take with hold := p :: rest, head := .parked ⟨now, x.config.parkTimeout.toNat⟩ } }, [])
    else
      let next := x.readsJudged now rest
      (next.1, ⟨p.requester, p.tag, .ok,
        List.replicate (if p.release then 1 else p.count) x.config.fillWord⟩ :: next.2)

/-! ### What the engines leave -/

/-- The take engine with its take ended: only the take number stays in the record (R105). -/
def TakeEngine.ended (t : TakeEngine) : TakeEngine :=
  { t with record := { TakeRecord.reset with number := t.record.number } }

/-- The torn-write list once the open slot is torn (R56; log 13). -/
def PutEngine.tornList (p : PutEngine) : List TornEntry :=
  if p.outstanding = 0 then p.torn else p.torn ++ [⟨p.generation, p.outstanding⟩]

/-- The check word of a slot after the burst `h :: ws` at its header (R74, R75). -/
def RingConfig.burstCheck (c : RingConfig) (h : Word) (ws : List Word) : BitVec 16 :=
  if c.checkMode = .off then 0xFFFF
  else crcWords 0xFFFF ((h :: ws).take ((h.extractLsb' 0 8).toNat + 1))

/-- The Put Engine once the burst `h :: ws` of requester `q` under tag `u` has opened a slot (R58, R60,
R61, R75, R76). -/
def Ring.openedPut (x : Ring) (q : Requester) (u : UTag) (h : Word) (ws : List Word) : PutEngine :=
  { x.put with
    phase := if ws.length = x.config.lastOf h then .committing else .filling
    position := (x.t + x.occ) % x.config.slots
    generation := x.put.generation + 1
    length := h.extractLsb' 0 8
    lastUsed := x.config.lastOf h
    cursor := 1 + ws.length
    marker := h.extractLsb' 16 16
    sequence := h.extractLsb' 8 8
    crc := x.config.burstCheck h ws
    mismatch := decide (x.config.checkMode = .verify ∧ ws.length = x.config.lastOf h ∧
      ((h :: ws).getD (x.config.lastOf h) 0).extractLsb' 0 16 ≠ x.config.burstCheck h ws)
    downFault := false
    outstanding := 1
    uRequest := if ws.length = x.config.lastOf h then some ⟨q, u, 0⟩ else .none
    writes := x.put.writes ++ [⟨q, u, 0, x.put.generation + 1⟩]
    hold := []
    head := .clear }

/-- The write of that burst as it is handed to the Memory Port, with the check word in place of the
trailer under GENERATE (R60, R78). -/
def Ring.openingWrite (x : Ring) (r : RingId) (q : Requester) (u : UTag) (h : Word)
    (ws : List Word) : Issue :=
  ⟨.put r, q, u, x.put.generation + 1, .write,
    x.config.storageBase +
      BitVec.ofNat 32 (4 * ((x.t + x.occ) % x.config.slots * x.config.slotWords)),
    1 + ws.length,
    if x.config.checkMode = .generate ∧ ws.length = x.config.lastOf h then
      (h :: ws).set (x.config.lastOf h) ((x.config.burstCheck h ws).zeroExtend 32)
    else h :: ws,
    List.replicate (1 + ws.length) 0xF⟩

/-- On a PACED ring the take stands at the position that a header would open (R133). -/
def Ring.takeInTheWay (x : Ring) : Bool :=
  decide (x.config.kind = .paced ∧ x.take.record.present = true ∧
    x.take.record.position = (x.t + x.occ) % x.config.slots)

/-- The ring once that burst has opened a slot; a take in its way is revoked first (R58, R133). -/
def Ring.openedBy (x : Ring) (q : Requester) (u : UTag) (h : Word) (ws : List Word) : Ring :=
  { x with
    put := x.openedPut q u h ws
    take := if x.takeInTheWay then x.take.ended else x.take
    events := if x.takeInTheWay then x.events.report 0x1000#18 13 1 else x.events }

/-- The ring once that burst has restarted the slot FILLING (R56). -/
def Ring.restartedBy (x : Ring) (q : Requester) (u : UTag) (h : Word) (ws : List Word) (now : Time) :
    Ring :=
  { x with
    put :=
      { x.openedPut q u h ws with
        torn := x.put.tornList
        refusal := ⟨some .restarted, q, 0, now, true⟩ }
    events := x.events.report 0x80#18 5 1 }

/-- The burst `h :: ws` passes the tests on a header and on the words behind it (R55, R59). -/
def RingConfig.burstFits (c : RingConfig) (h : Word) (ws : List Word) : Prop :=
  1 + c.lastOf h ≤ c.slotWords ∧ ws.length ≤ c.lastOf h

/-- The outcome of the write of generation `g` belongs to the slot FILLING or COMMITTING (R62). -/
def PutEngine.ofOpenSlot (p : PutEngine) (g : BitVec 8) : Bool := p.slotOpen && p.generation == g

/-- The ring once the outcome of the write that entry `e` holds for requester `q` under tag `u`, of
generation `g`, has been counted and, when ERROR, recorded (R62). -/
def Ring.outcomeCounted (x : Ring) (q : Requester) (u : UTag) (g : BitVec 8) (e : WriteEntry)
    (status : Status) (now : Time) : Ring :=
  { x with
    put :=
      { x.put with
        outstanding := if x.put.ofOpenSlot g then x.put.outstanding - 1 else x.put.outstanding
        downFault := x.put.downFault || (x.put.ofOpenSlot g && decide (status = .error))
        torn :=
          if x.put.ofOpenSlot g then x.put.torn
          else
            (x.put.torn.map
              (fun d => if d.generation = g then { d with count := d.count - 1 } else d)).filter
              (fun d => decide (d.count ≠ 0))
        writes := x.put.writes.filter (fun e => !(e.requester == q && e.tag == u))
        refusal :=
          if status = .error then ⟨some .downstream, q, e.offset, now, true⟩ else x.put.refusal }
    events :=
      if status = .error then x.events.report 0x8000#18 14 1 else x.events }

/-- The answer at the outcome: the request that carried U waits for the commit completion (R64). -/
def Ring.outcomeAnswer (x : Ring) (q : Requester) (u : UTag) (status : Status) : List UpResponse :=
  if x.put.slotOpen && x.put.uRequest.any (fun w => w.requester == q && w.tag == u) then []
  else [⟨q, u, status, []⟩]

/-- The open slot has returned to NONE (R63 step 5). -/
def Ring.closed (x : Ring) : Ring :=
  { x with put := { x.put with phase := .none, uRequest := .none, head := .clear } }

/-- Command `c` brings the outcome `status` to tag `i`, BUSY until `timeout`, and leaves the tags at `tags`
(R14, R15). -/
def State.outcomeBy (s : State) (i : DTag) (timeout : Timer) (c : Instr) (status : Status)
    (tags : Vector TagEntry 64) : Prop :=
  (∃ data, c = .downstreamResponse i status data ∧ tags = s.tags.set i .free) ∨
    (c = .responseTimeout i ∧ timeout.due s.timebase = true ∧ status = .error ∧
      tags = s.tags.set i (.stale (some ⟨s.timebase, s.downTimeout.toNat⟩)))

/-- The stamp entry that a publish writes for the open slot (table 2.9, R49; log 25). -/
def Ring.publishedStamp (x : Ring) (now : Time) (gap : Bool) : Stamp where
  commitTime := now
  marker := x.put.marker
  sequence := x.put.sequence
  length := x.put.length
  gap := gap
  check :=
    match x.config.checkMode with
    | .off => .none
    | .verify => .verified
    | .generate => .generated

/-- The flag bit that an alignment decision raises (R93, R97; table 11.7). -/
def alignBits (f : Option RingFlag) : BitVec 18 :=
  match f with
  | some .alignFound => 0x1#18
  | some .alignLost => 0x2#18
  | _ => 0

/-- The flag bits in `mask`, if `b`. -/
def flagsIf (b : Bool) (mask : BitVec 18) : BitVec 18 := if b then mask else 0

/-- A check mismatch ends the alignment: it is one error more than the threshold allows (R95). -/
def AlignChecker.losesByMismatch (a : AlignChecker) (c : RingConfig) : Bool :=
  decide (a.state = .aligned ∧ c.errorThreshold.toNat < a.errorCount + 1)

/-- The Alignment Checker after the report of a check mismatch (R77, R95, R97). -/
def AlignChecker.mismatchReported (a : AlignChecker) (c : RingConfig) (now : Time) : AlignChecker :=
  if a.losesByMismatch c then
    { a with
      state := .search
      lastLoss := .rate
      failures := 0
      errorCount := 0
      searchTimer :=
        if c.alignMode = .auto then some ⟨now, c.searchTimeout.toNat * 1000⟩ else none }
  else if a.state = .aligned then { a with errorCount := a.errorCount + 1 }
  else a

/-- The ring once its open slot has been discarded for a check mismatch: recorded against the U request and
reported to the Alignment Checker (R63 step 2, R77, R95). -/
def Ring.mismatchDiscarded (x : Ring) (w : UReq) (now : Time) : Ring :=
  { x.closed with
    put := { x.closed.put with refusal := ⟨some .checkMismatch, w.requester, w.offset, now, true⟩ }
    align := x.align.mismatchReported x.config now
    events :=
      x.events.report (0x10#18 ||| flagsIf (x.align.losesByMismatch x.config) 0x2#18) 1 1 }

/-- The ring once alignment, deciding `j`, has dropped its open slot (R63 step 3). -/
def Ring.alignDropped (x : Ring) (j : Judgement) : Ring :=
  { x.closed with align := j.after, events := x.events.report (alignBits j.flag) 2 1 }

/-- A MESSAGE ring once its open slot has been published, with alignment deciding `j` (R41, R63 step 4). -/
def Ring.messagePublished (x : Ring) (j : Judgement) : Ring :=
  { x.closed with
    occ := x.occ + 1
    align := j.after
    events :=
      if j.decision = .publishGap then
        (x.events.report (alignBits j.flag) 0 1).report 0x8#18 3 1
      else x.events.report (alignBits j.flag) 0 1 }

/-- The open slot, at its commit completion, gets past the downstream and check verdicts (R63). -/
def Ring.reachesAlign (x : Ring) : Bool :=
  !x.put.downFault && !(decide (x.config.checkMode = .verify) && x.put.mismatch)

/-- A MESSAGE ring, or one of either kind that does not publish, once the verdicts have been taken on its
open slot in their order and the slot has been closed, and the status of the U request (R63). -/
def Ring.verdictTaken (x : Ring) (w : UReq) (j : Judgement) (now : Time) : Ring × Status :=
  if x.put.downFault then (x.closed, .error)
  else if x.config.checkMode = .verify ∧ x.put.mismatch = true then (x.mismatchDiscarded w now, .error)
  else if j.decision = .drop then (x.alignDropped j, .ok)
  else (x.messagePublished j, .ok)

/-- Judging the queue `hold` on a ring at `x` with no slot open brings the ring to `y`, with the answers and
the requests handed down: nothing is held; or the ring drains or has no room; or one header is held alone,
fits and has room, and opens its slot or waits for its generation (R52, R57, R58). -/
def Ring.QueueServed (x : Ring) (r : RingId) (now : Time) (hold : List PutReq) (y : Ring)
    (answers : List UpResponse) (issues : List Issue) : Prop :=
  (hold = [] ∧ y = x ∧ answers = [] ∧ issues = []) ∨
  ((x.state = .draining ∨ ¬x.roomFor) ∧ (y, answers) = x.queueJudged now hold ∧ issues = []) ∨
  ∃ (p : Requester) (v : UTag) (h : Word) (ws : List Word), hold = [⟨p, v, 0, .words (h :: ws)⟩] ∧
    x.state = .running ∧ x.config.burstFits h ws ∧ x.roomFor ∧ answers = [] ∧
    ((x.put.generationClear ∧ y = x.openedBy p v h ws ∧ issues = [x.openingWrite r p v h ws]) ∨
      (¬x.put.generationClear ∧ y = { x with put := { x.put with head := .waiting } } ∧ issues = []))

/-- The request as the Take Engine holds it. -/
def takeReqOf (q : UpRequest) (k : Nat) : TakeReq := ⟨q.requester, q.tag, k, q.count, false⟩

/-- The take number that the next take start gives: the first after the present one that no entry of the
read list holds (R110). -/
def TakeEngine.NumbersNext (t : TakeEngine) (number : BitVec 8) : Prop :=
  (∀ d ∈ t.reads, d.number ≠ number) ∧
    ∃ skipped < 256, number = t.record.number + 1 + BitVec.ofNat 8 skipped ∧
      ∀ n < skipped, ∃ d ∈ t.reads, d.number = t.record.number + 1 + BitVec.ofNat 8 n

/-- U of a slot with stamp entry `e` (R49). -/
def RingConfig.lastOfStamp (c : RingConfig) (e : Stamp) : Nat :=
  e.length.toNat + if c.checkMode = .off then 0 else 1

/-- The Take Engine once an offset-0 read has started a take at position `p` and has been handed down
(R106, R110, R113). -/
def Ring.takenBy (x : Ring) (q : TakeReq) (p : Nat) (e : Stamp) (number : BitVec 8) (replay : Bool)
    (now : Time) : TakeEngine :=
  { x.take with
    record := ⟨true, p, e.length, x.config.lastOfStamp e, number, replay, now, 0, 0xFFFF⟩
    reads := x.take.reads ++
      [⟨q.requester, q.tag, 0, q.count, number, decide (x.config.lastOfStamp e < q.count),
        min q.count (x.config.lastOfStamp e + 1)⟩]
    hold := []
    head := .clear }

/-- That read as it is handed to the Memory Port: the words of position `p` from its first on (R113);
its generation 0 is the model's choice (log 18). -/
def Ring.startingRead (x : Ring) (r : RingId) (q : TakeReq) (p : Nat) (e : Stamp) : Issue :=
  ⟨.take r, q.requester, q.tag, 0, .read,
    x.config.storageBase + BitVec.ofNat 32 (4 * (p * x.config.slotWords)),
    min q.count (x.config.lastOfStamp e + 1), [], []⟩

/-- A take start at `now` is early: less than cadence min after the one before it (R142). -/
def Ring.EarlyAt (x : Ring) (now : Time) : Prop :=
  ∃ earlier, x.cadence.lastStart = some earlier ∧ (now - earlier).toNat < x.config.cadenceMin.toNat

/-- The ring once a take start, early or not, has been reported to the Cadence Monitor (R142, R145). -/
def Ring.startReported (x : Ring) (now : Time) (early : Bool) : Ring :=
  { x with
    cadence :=
      ⟨some now,
        if x.config.cadenceMax = 0 then none else some ⟨now, x.config.cadenceMax.toNat⟩,
        0, false, if early then .early else x.cadence.lastKind⟩
    events := if early then x.events.report 0x2000#18 11 1 else x.events }

/-- What a take start of ring `r` that leaves `occ` published slots, on a slot with stamp entry `e`, does to
the survey (R152). -/
def TakeSampled (s t : State) (r : RingId) (occ : Nat) (e : Stamp) : Prop :=
  (s.survey.state = .sampling ∧ s.survey.setup.trigger = .take ∧ s.survey.setup.source = r →
    SampledTo s.survey s.globalFlags s.timebase
      (if s.survey.setup.quantity = .occupancy then occ
       else min (s.timebase - e.commitTime).toNat 65535) t.survey t.globalFlags) ∧
  (¬(s.survey.state = .sampling ∧ s.survey.setup.trigger = .take ∧ s.survey.setup.source = r) →
    t.survey = s.survey ∧ t.globalFlags = s.globalFlags)

/-- The events after `n` advances of counter `i`. -/
def RingEvents.advanced (e : RingEvents) (i : Fin 15) (n : Nat) : RingEvents :=
  { e with counters := e.counters.set i (advanceCounter e.counters[i] n) }

/-- The last of the refusals with ABORTING of the requests held, given by requester and offset; the record
stays where there is none (R34, R71). -/
def RefusalRecord.afterAborting (f : RefusalRecord) (held : List (Requester × Nat)) (now : Time) :
    RefusalRecord :=
  match held.getLast? with
  | .none => f
  | .some (q, k) => ⟨some .aborting, q, k, now, true⟩

/-- The ring after the effects of ABORT (R34, R73, R120), before the test of its abort condition: the hold
queues refused, the slot FILLING torn (log 13), the take revoked, everything published departed. -/
def Ring.abortedAt (x : Ring) (now : Time) : Ring :=
  { x with
    state := .aborting
    t := (x.t + x.occ) % x.config.slots
    occ := 0
    retained := false
    ageTimer := .none
    align := { x.align with searchTimer := .none }
    cadence := { x.cadence with lateTimer := .none }
    put :=
      { x.put with
        phase := if x.put.phase = .filling then .none else x.put.phase
        outstanding := if x.put.phase = .filling then 0 else x.put.outstanding
        torn := if x.put.phase = .filling then x.put.tornList else x.put.torn
        hold := []
        head := .clear
        refusal :=
          x.put.refusal.afterAborting (x.put.hold.map (fun q => (q.requester, q.offset))) now }
    take :=
      { x.take with
        record := if x.take.record.present then x.take.ended.record else x.take.record
        hold := []
        head := .clear
        refusal :=
          x.take.refusal.afterAborting (x.take.hold.map (fun q => (q.requester, q.offset))) now }
    events :=
      { (((x.events.advanced 5 x.put.hold.length).advanced 6 x.take.hold.length).advanced 13
          (if x.take.record.present then 1 else 0)) with
        flags := x.events.flags ||| flagsIf (!x.put.hold.isEmpty) 0x80#18 |||
          flagsIf (!x.take.hold.isEmpty) 0x100#18 ||| flagsIf x.take.record.present 0x1000#18 } }

/-- The answers to the requests held by a ring that is aborted: the put hold queue before the take hold
queue, each in queue order (R34; log 6). -/
def Ring.abortAnswers (x : Ring) : List UpResponse :=
  x.put.hold.map (fun q => ⟨q.requester, q.tag, .error, []⟩) ++
    x.take.hold.map (fun q => ⟨q.requester, q.tag, .error, []⟩)

/-- The events with flags, counters and bank zeroed (R170). -/
def RingEvents.cleared (e : RingEvents) : RingEvents :=
  ⟨0, e.enables, Vector.replicate 15 0, Vector.replicate 15 0⟩

/-- The ring after a FLUSH (R37, R134), before a parked header takes the room. -/
def Ring.flushedOut (x : Ring) : Ring :=
  { x with
    t := (x.t + x.occ) % x.config.slots
    occ := 0
    retained := x.retained || decide (x.config.kind = .paced ∧ x.occ ≠ 0)
    paced := if x.config.kind = .paced then .priming else x.paced
    ageTimer := .none
    take := if x.take.record.present then x.take.ended else x.take
    events :=
      if x.take.record.present then x.events.report 0x1000#18 13 1 else x.events }

/-- The byte address lies in the region (table 1.3). -/
def State.liesIn (s : State) (g : Region) (a : Nat) : Prop :=
  match g with
  | .put r =>
    (s.ring r).state ≠ .idle ∧ (s.ring r).config.putBase.toNat ≤ a ∧
      a < (s.ring r).config.putBase.toNat + 8 * (s.ring r).config.slotWords
  | .take r =>
    (s.ring r).state ≠ .idle ∧ (s.ring r).config.takeBase.toNat ≤ a ∧
      a < (s.ring r).config.takeBase.toNat + 8 * (s.ring r).config.slotWords
  | .guarded r =>
    (s.ring r).state ≠ .idle ∧ (s.ring r).config.guard = true ∧
      (s.ring r).config.storageBase.toNat ≤ a ∧
      a < (s.ring r).config.storageBase.toNat +
        4 * (s.ring r).config.slots * (s.ring r).config.slotWords

/-- The region applies to the direction (table 1.3): guarded storage to writes only. -/
def Region.decodedFor (g : Region) (d : Dir) : Prop :=
  match g with
  | .put _ => True
  | .take _ => True
  | .guarded _ => d = .write

/-- The row that carries a ring command. -/
def RingCommand.row (c : RingCommand) (r : RingId) : Instr :=
  match c with
  | .start => .start r
  | .stop => .stop r
  | .abort => .abort r
  | .flush => .flush r
  | .snapshot => .snapshot r

/-- The byte of a row that is a data byte of the management port. -/
def dataByteOf (c : Instr) : Option Byte :=
  match c with
  | .flagClear b | .enableWrite b | .pageRegisterWrite b | .downstreamTimeoutWrite b
  | .coalescingPeriodWrite b | .samplesPerCycleWrite b | .registerWrite b => .some b
  | _ => .none

/-- The port is up, in a write transaction, and stands at byte `j` of field `f`. -/
def State.atByte (s : State) (f : RegField) (j : Nat) : Prop :=
  s.resetN = true ∧ s.port.transaction = .write ∧ s.portField = .some f ∧
    s.port.sub.toNat = f.low + j

/-- The port is up, in a read transaction, and stands at byte `j` of field `f`. -/
def State.readsByte (s : State) (f : RegField) (j : Nat) : Prop :=
  s.resetN = true ∧ s.port.transaction = .read ∧ s.portField = .some f ∧
    s.port.sub.toNat = f.low + j

/-! ### Register values -/

/-- `w` bits of a value, from bit `low` up. -/
def bitsOf (v low w : Nat) : Nat := v / 2 ^ low % 2 ^ w

/-- The value that bytes spell, the first most significant (R174). -/
def bigEndian : List Byte → Nat
  | [] => 0
  | b :: bs => b.toNat * 256 ^ bs.length + bigEndian bs

/-- Byte `b` completes field `f` of the port, behind the bytes staged for it, and spells the value `v`
(R174). -/
def State.completes (s : State) (f : RegField) (b : Byte) (v : Nat) : Prop :=
  ∃ bs, s.atByte f bs.length ∧ bs.length + 1 = f.bytes ∧ v = bigEndian (bs ++ [b]) ∧
    (bs = [] ∨ s.port.staging = some ⟨s.port.page, f.low, bs⟩)

/-- What a configuration field keeps of a written value, by its bits (table 11.4); none where table 2.2
refuses the value or the field is no configuration. -/
def RingReg.stored (x : RingReg) (v : Nat) : Option Nat :=
  match x with
  | .kind | .takeCheck | .guard => some (v % 2)
  | .putBase | .takeBase | .storageBase => some (v / 4 * 4)
  | .sizeCode => some (v % 8)
  | .slotCount | .highMark | .centre => some (v % 2048)
  | .producer | .consumer => if v % 32 ≤ 16 then some (v % 32) else none
  | .checkMode | .alignMode => if v % 4 ≤ 2 then some (v % 4) else none
  | .searchTimeout | .errorThreshold => if v ≤ 1000 then some v else none
  | .absenceLimit => if v % 16 = 0 then none else some (v % 16)
  | .marker | .fillWord | .parkTimeout | .ageLimit | .cadenceMin | .cadenceMax => some v
  | .command | .result | .readout | .flags | .enables | .putRefusal | .takeRefusal | .headStamp
  | .inTakeStamp | .bank _ => none

/-- What a setup field of the survey keeps of a written value (table 11.10); none where table 9.2 refuses
the value or the field is no setup. -/
def SurveyReg.stored (x : SurveyReg) (v : Nat) : Option Nat :=
  match x with
  | .source => if v ≤ 15 then some v else none
  | .quantity => if v ≤ 1 then some v else none
  | .trigger => if v ≤ 4 then some v else none
  | .samples => if 1 ≤ v ∧ v ≤ 256 then some v else none
  | .interval => if v = 0 then none else some v
  | .syncDelay => if v ≤ 1023 then some v else none
  | .holdoff | .repeats => some (v % 2)
  | .lowLimit | .highLimit => some v
  | .state | .resMinimum | .resMaximum | .resAverage | .resLast | .resCount | .resLimitExit => none

/-- The one ring that a command acts on, where it acts on one: its operand, the ring of the aperture a
request lies in, or the ring that owns the tag answered. -/
def State.actsOn (s : State) (c : Instr) : Option RingId :=
  match c with
  | .putParkExpiry r | .takeParkExpiry r | .ageExpiry r | .searchTimerExpiry r
  | .oneSecondBoundary r | .lateTimerExpiry r | .entryToIdle r
  | .start r | .stop r | .abort r | .flush r | .snapshot r => .some r
  | .upstreamRequest q =>
    match s.classify q with
    | .put r _ => .some r
    | .take r _ => .some r
    | .guardedWrite r => .some r
    | .pass | .straddle => .none
  | .downstreamResponse t _ _ | .responseTimeout t =>
    match s.tags[t] with
    | .busy (.put r) _ _ _ _ => .some r
    | .busy (.take r) _ _ _ _ => .some r
    | _ => .none
  | _ => .none

end Sys2Proof.Machine
end

