-- ==== Sys2Proof/Certificates/Slice0/Obligations.lean ====
section
/-! DEFINITION. The statements for the provers, in the order of the chapters they formalise. A next
state is given as a record update of the state before wherever the whole of it is known; a field that
such an update takes from `t` itself is the one the statement leaves open. -/

open Sys2Proof Sys2Proof.Machine

/-! ## The queue -/

/-- One step is the command at the front of the queue, run on the queue's rest; an empty queue idles
(log 1). -/
def Obligations.StepRunsTheFrontCommand : Prop :=
  (∀ (c : Instr) (s : State), step { s with pending := c :: s.pending } = exec c s) ∧
    ∀ s : State, s.pending = [] → step s = .next s

/-- Every command completes, and none touches the queue: the only stop is on a request that the link does
not deliver (log 5). -/
def Obligations.CommandsCompleteAndLeaveTheQueue : Prop :=
  (∀ (c : Instr) (s : State), (∀ q, c = .upstreamRequest q → q.wellFormed = true) →
    ∃ t, exec c s = .next t ∧ t.pending = s.pending) ∧
  ∀ (q : UpRequest) (s : State), q.wellFormed = false →
    exec (.upstreamRequest q) s = .fault .requestForm

/-! ## Resets -/

/-- POWER_ON (R20, with the power-on values of R48, R137, R159, R170 and R179). That RESET_N is high
after it is the model's choice (log 10). -/
def Obligations.PowerOnSetsEveryBlock : Prop :=
  ∀ (pins : BitVec 2) (s : State), ∃ t, exec (.powerOn pins) s = .next t ∧
    t.outstanding = [] ∧ (∀ i : DTag, t.tags[i] = .free) ∧ t.issueQueue = [] ∧
    t.downTimeout = 1000 ∧ (∀ r, (t.ring r).state = .idle) ∧
    (∀ q : UpRequest, t.classify q = .pass ∨
      (t.classify q = .straddle ∧ 0xFFFFFFFC < q.addr.toNat + 4 * (q.count - 1))) ∧
    t.resetN = true ∧ t.timebase = 0 ∧ (∀ r, t.ring r = Ring.reset) ∧ t.stamps = [] ∧
    t.globalFlags = 0 ∧ t.globalEnables = 0 ∧ t.period = 0 ∧ t.coalTimer = none ∧
    t.driver = .released ∧ t.survey = Survey.reset ∧
    t.port.deviceAddress.toNat = 0x58 + pins.toNat ∧ t.port.page = 0 ∧ t.port.sub = 0 ∧
    t.port.staging = none ∧ t.port.latches = [] ∧ t.port.resetCause = .powerOn ∧
    t.port.scratch = 0 ∧ t.port.command = 0 ∧ t.port.result = .none

/-- RESET_N (R21): its assertion, its release, and that while it is low no command but the resets
changes more than the level of SYNC and the end of a transaction (R21, R48, R159, R170, R171, R179). The
order of the answers, and that a response is discarded while the line is low, are the model's (log
7, log 9). -/
def Obligations.ResetLineEmptiesAndQuarantines : Prop :=
  (∀ s : State, ∃ t, exec .resetNAssert s = .next t ∧
    t.upResponses = s.upResponses ++
      s.outstanding.map (fun e => ⟨e.requester, e.tag, .error, []⟩) ∧
    t.outstanding = [] ∧ t.issueQueue = [] ∧
    (∀ i : DTag, (s.tags[i] = .free → t.tags[i] = .free) ∧
      (s.tags[i] ≠ .free → t.tags[i] = .stale none)) ∧
    (∀ r, t.ring r = Ring.reset) ∧ t.resetN = false ∧ t.timebase = 0 ∧ t.downTimeout = 1000 ∧
    t.stamps = [] ∧ t.driver = .released ∧ t.survey = Survey.reset ∧
    t.globalFlags = 0 ∧ t.globalEnables = 0 ∧ t.period = 0 ∧ t.coalTimer = none ∧
    t.port.page = 0 ∧ t.port.sub = 0 ∧ t.port.staging = none ∧ t.port.command = 0 ∧
    t.port.result = .none ∧ t.port.scratch = s.port.scratch ∧ t.port.transaction = .none ∧
    t.port.latches = []) ∧
  (∀ (c : Instr) (s t : State), s.resetN = false → (∀ pins, c ≠ .powerOn pins) →
    c ≠ .resetNAssert → (∀ pins, c ≠ .resetNRelease pins) → exec c s = .next t →
    (t.port = s.port ∨ t.port = { s.port with transaction := .none, staging := none, reply := .none }) ∧
    t = { s with syncLevel := t.syncLevel, port := t.port }) ∧
  ∀ (pins : BitVec 2) (s : State), s.resetN = false → ∃ t, exec (.resetNRelease pins) s = .next t ∧
    (∀ i : DTag, (∀ quarantine, s.tags[i] = .stale quarantine →
        t.tags[i] = .stale (some ⟨0, 1000⟩)) ∧
      ((∀ quarantine, s.tags[i] ≠ .stale quarantine) → t.tags[i] = s.tags[i])) ∧
    t.port.deviceAddress.toNat = 0x58 + pins.toNat ∧
    t = { s with
      resetN := true
      timebase := 0
      tags := t.tags
      port := { s.port with deviceAddress := t.port.deviceAddress, resetCause := .line } }

/-- SOFT_RESET (R177, with R22, R47, R159 and R170): flags, counters and banks are zeroed first, so that
what the aborts raise and count stands after it. The order of the answers is the model's choice (log
6, log 7), and so is the answer of the port where it stands at the command field (log 16); that a torn
slot's own count of writes becomes 0 is its reading (log 13), and that the survey's discarded accumulators
are 0 its choice (log 24). -/
def Obligations.SoftResetZeroesAndAborts : Prop :=
  ∀ s : State, s.resetN = true → ∃ t, exec .softReset s = .next t ∧
    (∀ r, ((s.ring r).state = .idle ∨ (s.ring r).state = .aborting →
        t.ring r = { s.ring r with events := (s.ring r).events.cleared }) ∧
      ((s.ring r).state = .running ∨ (s.ring r).state = .draining →
        ∀ y, y = ({ s.ring r with events := (s.ring r).events.cleared } : Ring).abortedAt s.timebase →
          (s.noDownstream r → t.ring r = y.atIdle) ∧ (¬s.noDownstream r → t.ring r = y))) ∧
    t = { s.answered (allRings.flatMap (fun r =>
        if (s.ring r).state = .running ∨ (s.ring r).state = .draining then (s.ring r).abortAnswers
        else [])) with
      rings := t.rings
      survey := { s.survey with
        state := .idle
        acc := Accumulators.zero
        delayTimer := none
        intervalTimer := none }
      globalFlags := 0
      driver := t.driver
      port := { s.commandPort (.global .command) with
        resetCause := .soft
        command := 1
        result := .accepted } }

/-! ## Time -/

/-- TIMEBASE_TICK (R137) and the expiry of a timer (R138): it is due at the value the sum gives, counted
modulo 2^32, and at none before it. -/
def Obligations.TimeAdvancesAndTimersExpire : Prop :=
  (∀ s : State, s.resetN = true →
    exec .timebaseTick s = .next { s with timebase := s.timebase + 1 }) ∧
  ∀ (start : Time) (interval : Nat), interval < 2 ^ 32 →
    (armTimer start interval).due (start + BitVec.ofNat 32 interval) = true ∧
    ∀ k < interval, (armTimer start interval).due (start + BitVec.ofNat 32 k) = false

/-! ## The memory link -/

/-- A request is withheld by the limits of R1 (log 4), and a clash with a pair held is answered ERROR,
without an entry, and raises TAG_CLASH (R3). -/
def Obligations.WithheldAndClashingRequests : Prop :=
  (∀ (q : UpRequest) (s : State), q.wellFormed = true →
    (8 ≤ s.outstandingOf q.requester ∨ 64 ≤ s.tagsInUse) → exec (.upstreamRequest q) s = .next s) ∧
  ∀ (q : UpRequest) (s : State), q.wellFormed = true → s.resetN = true →
    s.outstandingOf q.requester < 8 → s.tagsInUse < 64 → s.pairHeld q.requester q.tag = true →
    ∃ t, exec (.upstreamRequest q) s = .next t ∧
      t = { s with
        upResponses := s.upResponses ++ [⟨q.requester, q.tag, .error, []⟩]
        globalFlags := s.globalFlags ||| 1#5
        driver := t.driver }

/-- The classes of R5, for a range that does not pass the top (R4). The premise is the invariant
EveryStepKeepsRegionsApart. -/
def Obligations.RequestsAreClassified : Prop :=
  ∀ (s : State) (q : UpRequest), RegionsSound s → 1 ≤ q.count →
    q.addr.toNat + 4 * (q.count - 1) ≤ 0xFFFFFFFC →
    ((∀ i < q.count, ∀ g, g.decodedFor q.dir → ¬s.liesIn g (q.addr.toNat + 4 * i)) →
      s.classify q = .pass) ∧
    (∀ r, (∀ i < q.count, s.liesIn (.put r) (q.addr.toNat + 4 * i)) →
      s.classify q = .put r ((q.addr.toNat - (s.ring r).config.putBase.toNat) / 4)) ∧
    (∀ r, (∀ i < q.count, s.liesIn (.take r) (q.addr.toNat + 4 * i)) →
      s.classify q = .take r ((q.addr.toNat - (s.ring r).config.takeBase.toNat) / 4)) ∧
    (∀ r, q.dir = .write → (∀ i < q.count, s.liesIn (.guarded r) (q.addr.toNat + 4 * i)) →
      s.classify q = .guardedWrite r) ∧
    ((∃ g, g.decodedFor q.dir ∧ (∃ i < q.count, s.liesIn g (q.addr.toNat + 4 * i)) ∧
        ∃ j < q.count, ¬s.liesIn g (q.addr.toNat + 4 * j)) →
      s.classify q = .straddle)

/-- A STRADDLE, and a range that passes the top, is answered ERROR at once and raises STRADDLE, and no
ring changes (R4, R6); a GUARDED_WRITE is answered ERROR at once, is not forwarded and raises GUARD_HIT,
and no record and no counter changes (R7). -/
def Obligations.StraddlesAndGuardedWritesAreRefused : Prop :=
  (∀ (s : State) (q : UpRequest), 0xFFFFFFFC < q.addr.toNat + 4 * (q.count - 1) →
    s.classify q = .straddle) ∧
  (∀ (s : State) (q : UpRequest), s.takesIn q → s.classify q = .straddle →
    ∃ t, exec (.upstreamRequest q) s = .next t ∧
      t = { s with
        upResponses := s.upResponses ++ [⟨q.requester, q.tag, .error, []⟩]
        globalFlags := s.globalFlags ||| 2#5
        driver := t.driver }) ∧
  ∀ (s : State) (q : UpRequest) (r : RingId), s.takesIn q → s.classify q = .guardedWrite r →
    ∃ t, exec (.upstreamRequest q) s = .next t ∧
      t.ring r = { s.ring r with
        events := { (s.ring r).events with flags := (s.ring r).events.flags ||| 0x10000#18 } } ∧
      (∀ p, p ≠ r → t.ring p = s.ring p) ∧
      t = { s with
        upResponses := s.upResponses ++ [⟨q.requester, q.tag, .error, []⟩]
        rings := t.rings
        driver := t.driver }

/-- The checks of R9 with table 1.4, in their order, on both apertures. -/
def Obligations.ApertureChecksInOrder : Prop :=
  ∀ (x : Ring) (q : UpRequest) (k : Nat),
    (x.state = .aborting → x.putCheck q k = some .aborting ∧ x.takeCheckCause q k = some .aborting) ∧
    (x.state ≠ .aborting → ∀ p : Requester, p ≠ q.requester →
      (x.config.producer = .only p → x.putCheck q k = some .wrongRequester) ∧
      (x.config.consumer = .only p → x.takeCheckCause q k = some .wrongRequester)) ∧
    (x.state ≠ .aborting → 1 < q.count → x.config.slotWords ≤ k + q.count - 1 →
      ((x.config.producer = .any ∨ x.config.producer = .only q.requester) →
        x.putCheck q k = some .mixed) ∧
      ((x.config.consumer = .any ∨ x.config.consumer = .only q.requester) →
        x.takeCheckCause q k = some .mixed)) ∧
    (x.state ≠ .aborting → (q.count ≤ 1 ∨ k + q.count - 1 < x.config.slotWords) →
      ((x.config.producer = .any ∨ x.config.producer = .only q.requester) →
        (q.dir = .read → k = x.config.slotWords + 1 → x.putCheck q k = none) ∧
        (q.dir = .read → k ≠ x.config.slotWords + 1 → x.putCheck q k = some .wrongDirection) ∧
        (q.dir = .write → x.config.slotWords < k → x.putCheck q k = some .unusedOffset) ∧
        (q.dir = .write → k = x.config.slotWords → x.putCheck q k = none) ∧
        (q.dir = .write → k < x.config.slotWords → (∀ m ∈ q.lanes, m = 0xF#4) →
          x.putCheck q k = none) ∧
        (q.dir = .write → k < x.config.slotWords → (∃ m ∈ q.lanes, m ≠ 0xF#4) →
          x.putCheck q k = some .partialLanes)) ∧
      ((x.config.consumer = .any ∨ x.config.consumer = .only q.requester) →
        (q.dir = .read → x.takeCheckCause q k = none) ∧
        (q.dir = .write → x.takeCheckCause q k = some .wrongDirection)))

/-- A refusal by the Aperture Decoder: ERROR at once, the side's record overwritten, PUT_FAULT or
TAKE_FAULT raised and its counter advanced, and nothing else (R12). -/
def Obligations.ApertureRefusalIsRecorded : Prop :=
  (∀ (s : State) (q : UpRequest) (r : RingId) (k : Nat) (c : Cause), s.takesIn q →
    s.classify q = .put r k → (s.ring r).putCheck q k = some c →
    ∃ t, exec (.upstreamRequest q) s = .next t ∧
      t.ring r = { s.ring r with
        put := { (s.ring r).put with refusal := ⟨some c, q.requester, k, s.timebase, true⟩ }
        events := { (s.ring r).events with
          flags := (s.ring r).events.flags ||| 0x80#18
          counters := (s.ring r).events.counters.set 5
            (advanceCounter (s.ring r).events.counters[5] 1) } } ∧
      (∀ p, p ≠ r → t.ring p = s.ring p) ∧
      t = { s with
        upResponses := s.upResponses ++ [⟨q.requester, q.tag, .error, []⟩]
        rings := t.rings
        driver := t.driver }) ∧
  ∀ (s : State) (q : UpRequest) (r : RingId) (k : Nat) (c : Cause), s.takesIn q →
    s.classify q = .take r k → (s.ring r).takeCheckCause q k = some c →
    ∃ t, exec (.upstreamRequest q) s = .next t ∧
      t.ring r = { s.ring r with
        take := { (s.ring r).take with refusal := ⟨some c, q.requester, k, s.timebase, true⟩ }
        events := { (s.ring r).events with
          flags := (s.ring r).events.flags ||| 0x100#18
          counters := (s.ring r).events.counters.set 6
            (advanceCounter (s.ring r).events.counters[6] 1) } } ∧
      (∀ p, p ≠ r → t.ring p = s.ring p) ∧
      t = { s with
        upResponses := s.upResponses ++ [⟨q.requester, q.tag, .error, []⟩]
        rings := t.rings
        driver := t.driver }

/-- A PASS request is handed to the Memory Port unchanged; its response is made from the downstream
result, with the words that an OK response carries on a READ and with none else, and it raises no flag
and changes no counter (R18). The generation `g` of the entry, which table 1.5 gives no value for PASS, is
left open. -/
def Obligations.PassTrafficGoesThrough : Prop :=
  (∀ (s : State) (q : UpRequest), s.takesIn q → s.classify q = .pass →
    ∃ g, exec (.upstreamRequest q) s = .next { s with
      outstanding := s.outstanding ++ [entryOf q]
      issueQueue := s.issueQueue ++
        [⟨.pass, q.requester, q.tag, g, q.dir, q.addr, q.count, q.data, q.lanes⟩] }) ∧
  ∀ (s : State) (i : DTag) (q : Requester) (u : UTag) (g : BitVec 8) (timeout : Timer) (d : OutEntry),
    s.resetN = true → s.tags[i] = .busy .pass q u g timeout →
    s.outstanding.find? (fun e => e.requester == q && e.tag == u) = some d →
    (∀ data, exec (.downstreamResponse i .ok data) s =
      .next { s.answered [⟨q, u, .ok, if d.dir = .read then data else []⟩] with
        tags := s.tags.set i .free }) ∧
    (∀ data, exec (.downstreamResponse i .error data) s =
      .next { s.answered [⟨q, u, .error, []⟩] with tags := s.tags.set i .free }) ∧
    (timeout.due s.timebase = true → exec (.responseTimeout i) s =
      .next { s.answered [⟨q, u, .error, []⟩] with
        tags := s.tags.set i (.stale (some ⟨s.timebase, s.downTimeout.toNat⟩)) })

/-- A STATUS read of either aperture is answered at once with the status word, and a read of an unused
control offset of the take aperture with the fill word; neither changes anything else (R50, R11). -/
def Obligations.StatusAndUnusedOffsetReads : Prop :=
  (∀ (s : State) (q : UpRequest) (r : RingId), s.takesIn q → q.dir = .read →
    ((s.classify q = .put r ((s.ring r).config.slotWords + 1) ∧
        (s.ring r).putCheck q ((s.ring r).config.slotWords + 1) = none) ∨
      (s.classify q = .take r ((s.ring r).config.slotWords + 1) ∧
        (s.ring r).takeCheckCause q ((s.ring r).config.slotWords + 1) = none)) →
    ∃ w, exec (.upstreamRequest q) s = .next { s with
        upResponses := s.upResponses ++ [⟨q.requester, q.tag, .ok, [w]⟩] } ∧
      w.extractLsb' 29 3 = BitVec.ofNat 3 (s.ring r).state.code ∧
      w.extractLsb' 26 3 = BitVec.ofNat 3 (s.ring r).align.state.code ∧
      w.extractLsb' 24 2 = BitVec.ofNat 2 (s.ring r).paced.code ∧
      w.extractLsb' 23 1 = BitVec.ofBool (s.ring r).take.record.present ∧
      w.extractLsb' 22 1 = BitVec.ofBool (s.ring r).put.slotOpen ∧
      w.extractLsb' 11 11 = BitVec.ofNat 11 (s.ring r).occ ∧
      w.extractLsb' 0 11 = BitVec.ofNat 11
        ((s.ring r).config.slots - (s.ring r).occ - bit (s.ring r).take.record.present -
          bit (s.ring r).put.slotOpen -
          if (s.ring r).config.kind = .paced ∧ (s.ring r).retained = true ∧
              ¬((s.ring r).take.record.present = true ∧ (s.ring r).take.record.position =
                ((s.ring r).t + (s.ring r).config.slots - 1) % (s.ring r).config.slots) then 1
          else 0)) ∧
  ∀ (s : State) (q : UpRequest) (r : RingId) (k : Nat), s.takesIn q → s.classify q = .take r k →
    (s.ring r).config.slotWords + 1 < k → (s.ring r).takeCheckCause q k = none →
    exec (.upstreamRequest q) s = .next { s with
      upResponses := s.upResponses ++
        [⟨q.requester, q.tag, .ok, [(s.ring r).config.fillWord]⟩] }

/-- The life of a downstream tag: the head of the issue queue takes the lowest FREE one and waits
while there is none (R13); a response, a response timeout and a quarantine act by the state of the
entry (R14, R15, R16), a response whatever words it carries. That an expiry before its time changes
nothing is the model's choice (log 2, log 3). -/
def Obligations.TagsAreTakenMatchedAndFreed : Prop :=
  (∀ (s : State) (i : Issue) (rest : List Issue) (t : DTag), s.resetN = true →
    s.issueQueue = i :: rest → s.tags[t] = .free → (∀ j : DTag, j < t → s.tags[j] ≠ .free) →
    exec .downstreamIssue s = .next { s with
      issueQueue := rest
      tags := s.tags.set t
        (.busy i.owner i.requester i.tag i.generation ⟨s.timebase, s.downTimeout.toNat⟩)
      downRequests := s.downRequests ++ [⟨t, i.dir, i.addr, i.count, i.data, i.lanes⟩] }) ∧
  (∀ s : State, (s.issueQueue = [] ∨ ∀ j : DTag, s.tags[j] ≠ .free) →
    exec .downstreamIssue s = .next s) ∧
  (∀ (s : State) (i : DTag) (status : Status) (data : List Word), s.resetN = true →
    (s.tags[i] = .free → exec (.downstreamResponse i status data) s = .next s) ∧
    (∀ quarantine, s.tags[i] = .stale quarantine →
      exec (.downstreamResponse i status data) s = .next { s with tags := s.tags.set i .free }) ∧
    ∀ o q u g timeout, s.tags[i] = .busy o q u g timeout →
      exec (.downstreamResponse i status data) s =
        .next (({ s with tags := s.tags.set i .free } : State).deliver o q u g status data)) ∧
  (∀ (s : State) (i : DTag) (o : Owner) (q : Requester) (u : UTag) (g : BitVec 8) (timeout : Timer),
    s.resetN = true → s.tags[i] = .busy o q u g timeout →
    (timeout.due s.timebase = true → exec (.responseTimeout i) s =
      .next (({ s with
        tags := s.tags.set i (.stale (some ⟨s.timebase, s.downTimeout.toNat⟩)) } : State).deliver
          o q u g .error [])) ∧
    (timeout.due s.timebase = false → exec (.responseTimeout i) s = .next s)) ∧
  ∀ (s : State) (i : DTag) (quarantine : Timer), s.resetN = true →
    s.tags[i] = .stale (some quarantine) →
    (quarantine.due s.timebase = true →
      exec (.quarantineExpiry i) s = .next { s with tags := s.tags.set i .free }) ∧
    (quarantine.due s.timebase = false → exec (.quarantineExpiry i) s = .next s)

/-- A command that acts on one ring leaves every other ring, the configuration and enables of its own,
the tag table but for the tag it answers, and the settings of the part. -/
def Obligations.RingEventsStayInTheirRing : Prop :=
  ∀ (s t : State) (c : Instr) (r : RingId), s.actsOn c = some r → exec c s = .next t →
    (∀ q, q ≠ r → t.ring q = s.ring q) ∧ (t.ring r).config = (s.ring r).config ∧
    (t.ring r).events.enables = (s.ring r).events.enables ∧ t.timebase = s.timebase ∧
    t.downTimeout = s.downTimeout ∧ t.period = s.period ∧ t.coalTimer = s.coalTimer ∧
    t.globalEnables = s.globalEnables ∧ t.survey.setup = s.survey.setup ∧
    t.downRequests = s.downRequests ∧
    ∀ i : DTag, (∀ status data, c ≠ .downstreamResponse i status data) → c ≠ .responseTimeout i →
      t.tags[i] = s.tags[i]

/-! ## Ring commands -/

/-- Table 2.5: a ring command in a state that does not accept it is answered WRONG_STATE and leaves
the ring, the engines and the pool as they were; the other commands are ACCEPTED (R28; START by its
own checks). The answer of the port where it stands at the command field is the model's choice (log
16). So is the code kept of a refused command (log 21). -/
def Obligations.RingCommandsNeedTheirState : Prop :=
  ∀ (s : State) (r : RingId) (c : RingCommand), s.resetN = true →
    ((c = .start ∧ (s.ring r).state ≠ .idle) ∨ (c = .stop ∧ (s.ring r).state ≠ .running) ∨
        (c = .flush ∧ (s.ring r).state ≠ .running) ∨
        (c = .abort ∧ ((s.ring r).state = .idle ∨ (s.ring r).state = .aborting)) →
      ∃ t, exec (c.row r) s = .next t ∧
        t.ring r = { s.ring r with command := c.code, result := .wrongState } ∧
        (∀ p, p ≠ r → t.ring p = s.ring p) ∧
        t = { s with rings := t.rings, port := s.commandPort (.ring r .command) }) ∧
    ((c = .stop ∧ (s.ring r).state = .running) ∨ (c = .flush ∧ (s.ring r).state = .running) ∨
        (c = .abort ∧ ((s.ring r).state = .running ∨ (s.ring r).state = .draining)) ∨
        c = .snapshot →
      ∃ t, exec (c.row r) s = .next t ∧ (t.ring r).command = c.code ∧
        (t.ring r).result = .accepted)

/-- START is judged by table 2.6 in its order, and a refused START changes nothing but the command
and result fields (R29, R30). The premise is the invariant EveryStepKeepsRegionsApart. The answer of
the port where it stands at the command field is the model's choice (log 16). So is the code kept of a
refused START (log 21). -/
def Obligations.StartValidatesInOrder : Prop :=
  ∀ (s : State) (r : RingId), RegionsSound s → s.resetN = true →
    ∃ t, exec (.start r) s = .next t ∧ (t.ring r).command = 1 ∧
      firstOf .accepted (s.startChecks r) (t.ring r).result ∧
      ((t.ring r).result ≠ .accepted →
        t.ring r = { s.ring r with command := 1, result := (t.ring r).result } ∧
        (∀ p, p ≠ r → t.ring p = s.ring p) ∧
        t = { s with rings := t.rings, port := s.commandPort (.ring r .command) })

/-- An accepted START: the running fields, the lowest free stamp blocks with their entries zeroed,
and every block of hardware of the ring at its starting state (R31, R44). The answer of the port
where it stands at the command field is the model's choice (log 16). -/
def Obligations.StartSetsTheRing : Prop :=
  ∀ (s : State) (r : RingId), s.resetN = true → s.startResult r = .accepted →
    ∃ t, exec (.start r) s = .next t ∧
      (t.ring r).blocks.length = ((s.ring r).config.slots + 63) / 64 ∧
      (t.ring r).blocks.Pairwise (· < ·) ∧
      (∀ b ∈ (t.ring r).blocks, b < 64 ∧ ∀ q, b ∉ (s.ring q).blocks) ∧
      (∀ b < 64, b ∉ (t.ring r).blocks → (∃ d ∈ (t.ring r).blocks, b < d) →
        ∃ q, b ∈ (s.ring q).blocks) ∧
      (∀ i, sparseGet Stamp.zero t.stamps i =
        if i / 64 ∈ (t.ring r).blocks then Stamp.zero else sparseGet Stamp.zero s.stamps i) ∧
      t.ring r = { s.ring r with
        state := .running
        t := 0
        occ := 0
        retained := false
        paced := if (s.ring r).config.kind = .paced then .priming else .none
        blocks := (t.ring r).blocks
        command := 1
        result := .accepted
        put := PutEngine.reset
        take := TakeEngine.reset
        align :=
          { AlignChecker.reset with
            state := if (s.ring r).config.alignMode = .off then .off else .search
            searchTimer :=
              if (s.ring r).config.alignMode = .auto then
                .some ⟨s.timebase, (s.ring r).config.searchTimeout.toNat * 1000⟩
              else .none }
        cadence :=
          { CadenceMonitor.reset with
            lateTimer :=
              if (s.ring r).config.cadenceMax = 0 then .none
              else .some ⟨s.timebase, (s.ring r).config.cadenceMax.toNat⟩ }
        ageTimer := .none
        secondTimer := .some ⟨s.timebase, 1000000⟩ } ∧
      (∀ p, p ≠ r → t.ring p = s.ring p) ∧
      t = { s with
        rings := t.rings
        stamps := t.stamps
        port := s.commandPort (.ring r .command) }

/-- STOP on a RUNNING ring (R32): DRAINING, or IDLE at once when the drain condition holds; a parked
header is refused with DRAINING, and what stands behind it is judged, entry by entry: words are refused
with ORPHAN_WORD and every header too, so that the queue empties (R52, R66; N is at least 2 on a ring that
START has accepted, R29). The order of the answers (log 6) and the answer of the port where it stands at
the command field (log 16) are the model's choice. -/
def Obligations.StopDrains : Prop :=
  ∀ (s : State) (r : RingId), s.resetN = true → (s.ring r).state = .running →
    ((s.ring r).put.head.isParked = false → ¬s.drained r →
      ∃ t, exec (.stop r) s = .next t ∧
        t.ring r = { s.ring r with state := .draining, command := 2, result := .accepted } ∧
        (∀ p, p ≠ r → t.ring p = s.ring p) ∧
        t = { s with rings := t.rings, port := s.commandPort (.ring r .command) }) ∧
    ((s.ring r).put.head.isParked = false → s.drained r →
      ∃ t, exec (.stop r) s = .next t ∧ (t.ring r).state = .idle ∧ (t.ring r).blocks = [] ∧
        (t.ring r).result = .accepted ∧
        (t.ring r).events.flags = (s.ring r).events.flags ||| 0x20000#18) ∧
    ∀ (timer : Timer) (q : PutReq) (rest : List PutReq), (s.ring r).put.head = .parked timer →
      (s.ring r).put.hold = q :: rest →
      ∃ t more, exec (.stop r) s = .next t ∧
        t.upResponses = s.upResponses ++ ⟨q.requester, q.tag, .error, []⟩ :: more ∧
        (t.ring r).put.head.isParked = false ∧ (t.ring r).result = .accepted ∧
        ((t.ring r).state = .draining ∨ (t.ring r).state = .idle) ∧
        (t.ring r).events.flags &&& 0x40#18 = 0x40#18 ∧
        (rest = [] → more = [] ∧ (t.ring r).put.hold = [] ∧
          (t.ring r).put.refusal = ⟨some .draining, q.requester, q.offset, s.timebase, true⟩ ∧
          (t.ring r).events.counters =
            ((s.ring r).events.report 0x40#18 4 1).counters) ∧
        ((s.ring r).put.phase = .none → ¬(s.ring r).roomFor → 2 ≤ (s.ring r).config.slots →
          ∀ judged, judged = (({ s.ring r with state := .draining } : Ring).refusedWith q .draining
            s.timebase).queueJudged s.timebase rest →
          t.ring r = { judged.1 with command := 2, result := .accepted } ∧
          (t.ring r).put.hold = [] ∧ (∀ p, p ≠ r → t.ring p = s.ring p) ∧
          t = { s.answered (⟨q.requester, q.tag, .error, []⟩ :: judged.2) with
            rings := t.rings
            driver := t.driver
            port := s.commandPort (.ring r .command) })

/-- ABORT on a RUNNING or DRAINING ring (R34), with the test of the abort condition behind it (R35).
The answer of the port where it stands at the command field is the model's choice (log 16). So are
the order of the answers (log 6) and that the survey's discarded accumulators are 0 (log 24); that a torn
slot's own count of writes becomes 0 is its reading (log 13). -/
def Obligations.AbortEmptiesTheRing : Prop :=
  ∀ (s : State) (r : RingId) (y : Ring), s.resetN = true →
    ((s.ring r).state = .running ∨ (s.ring r).state = .draining) →
    y = (s.ring r).abortedAt s.timebase →
    ∃ t, exec (.abort r) s = .next t ∧
      (s.noDownstream r → t.ring r = { y.atIdle with command := 3, result := .accepted }) ∧
      (¬s.noDownstream r → t.ring r = { y with command := 3, result := .accepted }) ∧
      SourceLost s t r ∧ (∀ p, p ≠ r → t.ring p = s.ring p) ∧
      t = { s.answered (s.ring r).abortAnswers with
        rings := t.rings
        survey := t.survey
        globalFlags := t.globalFlags
        driver := t.driver
        port := s.commandPort (.ring r .command) }

/-- The entry to IDLE (R36), and that without its condition there is none (R33, R35). That the
command changes nothing without its condition is the model's choice (log 3, log 8), and so is that the
survey's discarded accumulators are 0 (log 24). -/
def Obligations.EntryToIdleReturnsTheBlocks : Prop :=
  ∀ (s : State) (r : RingId), s.resetN = true →
    (((s.ring r).state = .draining ∧ s.drained r) ∨
        ((s.ring r).state = .aborting ∧ s.noDownstream r) →
      ∃ t, exec (.entryToIdle r) s = .next t ∧
        t.ring r = { s.ring r with
          state := .idle
          occ := 0
          retained := false
          paced := .none
          blocks := []
          align := { (s.ring r).align with state := .off, searchTimer := .none }
          cadence := { (s.ring r).cadence with absent := false, lateTimer := .none }
          ageTimer := .none
          secondTimer := .none
          put := { (s.ring r).put with head := .clear }
          take := { (s.ring r).take with head := .clear }
          events :=
            { (s.ring r).events with flags := (s.ring r).events.flags ||| 0x20000#18 } } ∧
        SourceLost s t r ∧ (∀ p, p ≠ r → t.ring p = s.ring p) ∧
        t = { s with
          rings := t.rings
          survey := t.survey
          globalFlags := t.globalFlags
          driver := t.driver }) ∧
    (¬(((s.ring r).state = .draining ∧ s.drained r) ∨
        ((s.ring r).state = .aborting ∧ s.noDownstream r)) →
      exec (.entryToIdle r) s = .next s)

/-- FLUSH on a RUNNING ring (R37, R134): everything published departs, a take is revoked, and on a
MESSAGE ring a parked header, the only request held, takes the room (R67). The answer of the port
where it stands at the command field is the model's choice (log 16). -/
def Obligations.FlushDepartsEverything : Prop :=
  ∀ (s : State) (r : RingId) (x : Ring), s.resetN = true → (s.ring r).state = .running →
    x = { (s.ring r).flushedOut with command := 4, result := .accepted } →
    ((s.ring r).put.head.isParked = false →
      ∃ t, exec (.flush r) s = .next t ∧ t.ring r = x ∧ (∀ p, p ≠ r → t.ring p = s.ring p) ∧
        t = { s with
          rings := t.rings
          driver := t.driver
          port := s.commandPort (.ring r .command) }) ∧
    ∀ (timer : Timer) (q : Requester) (u : UTag) (h : Word) (ws : List Word),
      (s.ring r).config.kind = .message → (s.ring r).put.head = .parked timer →
      (s.ring r).put.hold = [⟨q, u, 0, .words (h :: ws)⟩] → (s.ring r).config.burstFits h ws →
      (s.ring r).put.phase = .none → 2 ≤ (s.ring r).config.slots →
      (s.ring r).put.generationClear →
      ∃ t, exec (.flush r) s = .next t ∧ t.ring r = x.openedBy q u h ws ∧
        (∀ p, p ≠ r → t.ring p = s.ring p) ∧
        t = { s with
          rings := t.rings
          driver := t.driver
          issueQueue := s.issueQueue ++ [x.openingWrite r q u h ws]
          port := s.commandPort (.ring r .command) }

/-- A counter advances up to its highest value and stays there (R168), and SNAPSHOT (R38): the bank takes
the live counters, which become 0, and nothing else of the ring changes. The answer of the port where it
stands at the command field is the model's choice (log 16). -/
def Obligations.CountersSaturateAndSnapshotsCopy : Prop :=
  (∀ (v : BitVec 32) (n : Nat),
    (advanceCounter v n).toNat = if v.toNat + n < 2 ^ 32 then v.toNat + n else 2 ^ 32 - 1) ∧
  ∀ (s : State) (r : RingId), s.resetN = true → ∃ t, exec (.snapshot r) s = .next t ∧
    t.ring r = { s.ring r with
      command := 5
      result := .accepted
      events :=
        { (s.ring r).events with
          bank := (s.ring r).events.counters
          counters := Vector.replicate 15 0 } } ∧
    (∀ p, p ≠ r → t.ring p = s.ring p) ∧
    t = { s with rings := t.rings, port := s.commandPort (.ring r .command) }

/-! ## Putting slots -/

/-- A header with room opens a slot and its burst is accepted (R58, R60, R61, R75, R78); on a PACED ring
a take at that position is revoked first (R133). -/
def Obligations.HeaderOpensASlot : Prop :=
  ∀ (s : State) (q : UpRequest) (r : RingId) (h : Word) (ws : List Word), s.reachesPut q r 0 →
    q.data = h :: ws → (s.ring r).state = .running → (s.ring r).put.phase = .none →
    (s.ring r).config.burstFits h ws → (s.ring r).roomFor → (s.ring r).put.generationClear →
    ∃ t, exec (.upstreamRequest q) s = .next t ∧
      t.ring r = (s.ring r).openedBy q.requester q.tag h ws ∧
      (∀ p, p ≠ r → t.ring p = s.ring p) ∧
      t = { s with
        outstanding := s.outstanding ++ [entryOf q]
        rings := t.rings
        driver := t.driver
        issueQueue := s.issueQueue ++ [(s.ring r).openingWrite r q.requester q.tag h ws] }

/-- A burst at the fill cursor that stays within U is accepted whole (R59, R60, R61, R75, R76, R78). -/
def Obligations.WordsExtendTheSlot : Prop :=
  ∀ (s : State) (q : UpRequest) (r : RingId) (k : Nat), s.reachesPut q r k → 1 ≤ k →
    k < (s.ring r).config.slotWords → (s.ring r).put.phase = .filling →
    k = (s.ring r).put.cursor → k + q.count ≤ (s.ring r).put.lastUsed + 1 →
    ∀ (crc : BitVec 16) (reachesU : Prop) [Decidable reachesU],
      crc = (if (s.ring r).config.checkMode = .off then (s.ring r).put.crc
        else crcWords (s.ring r).put.crc (q.data.take ((s.ring r).put.length.toNat + 1 - k))) →
      (reachesU ↔ k + q.count = (s.ring r).put.lastUsed + 1) →
      ∃ t, exec (.upstreamRequest q) s = .next t ∧
        t.ring r = { s.ring r with
          put := { (s.ring r).put with
            phase := if reachesU then .committing else .filling
            cursor := k + q.count
            crc := crc
            mismatch := (s.ring r).put.mismatch ||
              decide ((s.ring r).config.checkMode = .verify ∧ reachesU ∧
                (q.data.getD ((s.ring r).put.lastUsed - k) 0).extractLsb' 0 16 ≠ crc)
            outstanding := (s.ring r).put.outstanding + 1
            uRequest := if reachesU then some ⟨q.requester, q.tag, k⟩ else (s.ring r).put.uRequest
            writes := (s.ring r).put.writes ++
              [⟨q.requester, q.tag, k, (s.ring r).put.generation⟩]
            hold := []
            head := .clear } } ∧
        (∀ p, p ≠ r → t.ring p = s.ring p) ∧
        t = { s with
          outstanding := s.outstanding ++ [entryOf q]
          rings := t.rings
          issueQueue := s.issueQueue ++
            [⟨.put r, q.requester, q.tag, (s.ring r).put.generation, .write,
              (s.ring r).config.storageBase + BitVec.ofNat 32
                (4 * ((s.ring r).put.position * (s.ring r).config.slotWords + k)),
              q.count,
              if (s.ring r).config.checkMode = .generate ∧ reachesU then
                q.data.set ((s.ring r).put.lastUsed - k) (crc.zeroExtend 32)
              else q.data,
              List.replicate q.count 0xF⟩] }

/-- The refusals of the Put Engine in their order (R54, R55, R57, R59), each answered ERROR and recorded
with the flag and counter of table 3.4, as the bit of table 11.7 and the index of table 10.4 (R71, R72),
and QUEUE_FULL (R53). -/
def Obligations.PutRefusalsInOrder : Prop :=
  (∀ (s : State) (q : UpRequest) (r : RingId) (k : Nat) (c : Cause) (mask : BitVec 18) (i : Fin 15),
    s.reachesPut q r k → s.idleCondition r = false →
    ((∃ h ws, k = 0 ∧ q.data = h :: ws ∧ firstOf none
        [((s.ring r).config.slotWords < 1 + (s.ring r).config.lastOf h, some (.overlength, 0x80#18, 5)),
         ((s.ring r).state = .draining, some (.draining, 0x40#18, 4)),
         ((s.ring r).config.lastOf h < ws.length, some (.outsideSlot, 0x80#18, 5)),
         ((s.ring r).put.phase = .none ∧ ¬(s.ring r).roomFor ∧ (s.ring r).cadence.absent = true,
          some (.consumerAbsent, 0x40#18, 4)),
         ((s.ring r).put.phase = .none ∧ ¬(s.ring r).roomFor ∧ (s.ring r).config.parkTimeout = 0,
          some (.ringFull, 0x40#18, 4))] (some (c, mask, i))) ∨
      (1 ≤ k ∧ k < (s.ring r).config.slotWords ∧ firstOf none
        [((s.ring r).put.phase ≠ .filling, some (.orphanWord, 0x80#18, 5)),
         ((s.ring r).put.lastUsed < k, some (.outsideSlot, 0x80#18, 5)),
         (k ≠ (s.ring r).put.cursor, some (.outOfOrder, 0x80#18, 5)),
         ((s.ring r).put.lastUsed < k + q.count - 1, some (.outsideSlot, 0x80#18, 5))]
        (some (c, mask, i)))) →
    ∃ t, exec (.upstreamRequest q) s = .next t ∧
      t.ring r = { s.ring r with
        put := { (s.ring r).put with
          hold := []
          head := .clear
          refusal := ⟨some c, q.requester, k, s.timebase, true⟩ }
        events := (s.ring r).events.report mask i 1 } ∧
      (∀ p, p ≠ r → t.ring p = s.ring p) ∧
      t = { s with
        upResponses := s.upResponses ++ [⟨q.requester, q.tag, .error, []⟩]
        rings := t.rings
        driver := t.driver }) ∧
  ∀ (s : State) (q : UpRequest) (r : RingId) (k : Nat), s.takesIn q → s.classify q = .put r k →
    (s.ring r).putCheck q k = .none → q.dir = .write → s.idleCondition r = false →
    4 ≤ (s.ring r).put.hold.length →
    ∃ t, exec (.upstreamRequest q) s = .next t ∧
      t.ring r = { s.ring r with
        put := { (s.ring r).put with refusal := ⟨some .queueFull, q.requester, k, s.timebase, true⟩ }
        events := (s.ring r).events.report 0x40#18 4 1 } ∧
      (∀ p, p ≠ r → t.ring p = s.ring p) ∧
      t = { s with
        upResponses := s.upResponses ++ [⟨q.requester, q.tag, .error, []⟩]
        rings := t.rings
        driver := t.driver }

/-- A header that finds no room parks (R57, R66), one whose generation is held waits (R58), and a request
behind a held head or a commit queues (R52); none of them changes anything else. -/
def Obligations.HeldRequestsWait : Prop :=
  (∀ (s : State) (q : UpRequest) (r : RingId) (h : Word) (ws : List Word), s.reachesPut q r 0 →
    q.data = h :: ws → (s.ring r).state = .running →
    1 + (s.ring r).config.lastOf h ≤ (s.ring r).config.slotWords →
    ws.length ≤ (s.ring r).config.lastOf h →
    ((s.ring r).put.phase = .none → ¬(s.ring r).roomFor → (s.ring r).cadence.absent = false →
      (s.ring r).config.parkTimeout ≠ 0 →
      exec (.upstreamRequest q) s = .next { s with
        outstanding := s.outstanding ++ [entryOf q]
        rings := s.rings.set r { s.ring r with
          put := { (s.ring r).put with
            hold := [putReqOf q 0 (.words (h :: ws))]
            head := .parked ⟨s.timebase, (s.ring r).config.parkTimeout.toNat⟩ } } }) ∧
    (((s.ring r).put.phase = .none ∧ (s.ring r).roomFor) ∨ (s.ring r).put.phase = .filling →
      ¬(s.ring r).put.generationClear →
      exec (.upstreamRequest q) s = .next { s with
        outstanding := s.outstanding ++ [entryOf q]
        rings := s.rings.set r { s.ring r with
          put := { (s.ring r).put with
            hold := [putReqOf q 0 (.words (h :: ws))]
            head := .waiting } } })) ∧
  ∀ (s : State) (q : UpRequest) (r : RingId) (k : Nat), s.takesIn q → s.classify q = .put r k →
    (s.ring r).putCheck q k = .none → q.dir = .write → (s.ring r).put.hold.length < 4 →
    ((s.ring r).put.hold ≠ [] ∨ (s.ring r).put.phase = .committing) →
    (s.ring r).state ≠ .aborting →
    exec (.upstreamRequest q) s = .next { s with
      outstanding := s.outstanding ++ [entryOf q]
      rings := s.rings.set r { s.ring r with
        put := { (s.ring r).put with
          hold := (s.ring r).put.hold ++ [putReqOf q k
            (if k = (s.ring r).config.slotWords then .abandon else .words q.data)] } } }

/-- A header restarts a FILLING slot at its own position (R56), and ABANDON tears it (R65): the slot's
generation joins the torn-write list if it has writes outstanding. That the torn slot's own count becomes
0 under ABANDON is the model's reading (log 13). That the position of the torn slot is (t+occ) mod N is
the invariant EveryStepKeepsPositionsApart. -/
def Obligations.FillingSlotsAreTorn : Prop :=
  (∀ (s : State) (q : UpRequest) (r : RingId) (h : Word) (ws : List Word), s.reachesPut q r 0 →
    q.data = h :: ws → (s.ring r).state = .running → (s.ring r).put.phase = .filling →
    (s.ring r).config.burstFits h ws → (s.ring r).put.generationClear →
    ∃ t, exec (.upstreamRequest q) s = .next t ∧
      t.ring r = (s.ring r).restartedBy q.requester q.tag h ws s.timebase ∧
      (PositionsSound s → (t.ring r).put.position = (s.ring r).put.position) ∧
      (∀ p, p ≠ r → t.ring p = s.ring p) ∧
      t = { s with
        outstanding := s.outstanding ++ [entryOf q]
        rings := t.rings
        driver := t.driver
        issueQueue := s.issueQueue ++ [(s.ring r).openingWrite r q.requester q.tag h ws] }) ∧
  ∀ (s : State) (q : UpRequest) (r : RingId), s.reachesPut q r (s.ring r).config.slotWords →
    ((s.ring r).put.phase = .filling → (s.ring r).state = .running →
      ∃ t, exec (.upstreamRequest q) s = .next t ∧
        t.ring r = { s.ring r with
          put := { (s.ring r).put with
            phase := .none
            outstanding := 0
            torn := (s.ring r).put.tornList
            hold := []
            head := .clear
            refusal :=
              ⟨some .abandoned, q.requester, (s.ring r).config.slotWords, s.timebase, true⟩ }
          events := (s.ring r).events.report 0x80#18 5 1 } ∧
        (∀ p, p ≠ r → t.ring p = s.ring p) ∧
        t = { s with
          upResponses := s.upResponses ++ [⟨q.requester, q.tag, .ok, []⟩]
          rings := t.rings
          driver := t.driver }) ∧
    ((s.ring r).put.phase = .filling → (s.ring r).state = .draining →
      ∃ t, exec (.upstreamRequest q) s = .next t ∧ (t.ring r).put.phase = .none ∧
        t.upResponses = s.upResponses ++ [⟨q.requester, q.tag, .ok, []⟩] ∧
        ((t.ring r).state = .idle ↔ (s.ring r).occ = 0 ∧ (s.ring r).take.record.present = false ∧
          (s.ring r).take.hold = [] ∧ s.noDownstream r)) ∧
    ((s.ring r).put.phase = .none → s.idleCondition r = false →
      exec (.upstreamRequest q) s = .next { s with
        upResponses := s.upResponses ++ [⟨q.requester, q.tag, .ok, []⟩]
        rings := s.rings.set r { s.ring r with put := { (s.ring r).put with head := .clear } } })

/-- The park timers: a parked header is refused with PARK_EXPIRED (R68), a parked read is answered
with fill words (R119), and in both cases judging goes on behind it, entry by entry, up to one that parks
in its turn (R52, R66, R107): on a full MESSAGE ring words and headers behind are refused, on an empty one
reads behind are answered with fill words; on a DRAINING ring the drain condition is then tested. Before its
time neither expires. That an expiry before its time changes nothing (log 2, log 3), the order of the
answers (log 6), and that the survey's discarded accumulators are 0 (log 24) are the model's choice. -/
def Obligations.ParkExpiriesEndTheWait : Prop :=
  (∀ (s : State) (r : RingId) (timer : Timer) (q : PutReq) (rest : List PutReq), s.resetN = true →
    (s.ring r).put.head = .parked timer → (s.ring r).put.hold = q :: rest →
    (timer.due s.timebase = false → exec (.putParkExpiry r) s = .next s) ∧
    (timer.due s.timebase = true → ∃ t more, exec (.putParkExpiry r) s = .next t ∧
      t.upResponses = s.upResponses ++ ⟨q.requester, q.tag, .error, []⟩ :: more ∧
      (t.ring r).events.flags &&& 0x40#18 = 0x40#18 ∧
      (rest = [] → (s.ring r).state = .running → more = [] ∧
        t.ring r = { s.ring r with
          put := { (s.ring r).put with
            hold := []
            head := .clear
            refusal := ⟨some .parkExpired, q.requester, q.offset, s.timebase, true⟩ }
          events := (s.ring r).events.report 0x40#18 4 1 } ∧
        (∀ p, p ≠ r → t.ring p = s.ring p)) ∧
      ((s.ring r).state = .running → (s.ring r).put.phase = .none → ¬(s.ring r).roomFor →
        ∀ judged, judged =
          ((s.ring r).refusedWith q .parkExpired s.timebase).queueJudged s.timebase rest →
        t.ring r = judged.1 ∧ (∀ p, p ≠ r → t.ring p = s.ring p) ∧
        t = { s.answered (⟨q.requester, q.tag, .error, []⟩ :: judged.2) with
          rings := t.rings
          driver := t.driver }))) ∧
  ∀ (s : State) (r : RingId) (timer : Timer) (q : TakeReq) (rest : List TakeReq), s.resetN = true →
    (s.ring r).take.head = .parked timer → (s.ring r).take.hold = q :: rest →
    (timer.due s.timebase = false → exec (.takeParkExpiry r) s = .next s) ∧
    (timer.due s.timebase = true → ∃ t more, exec (.takeParkExpiry r) s = .next t ∧
      t.upResponses = s.upResponses ++
        ⟨q.requester, q.tag, .ok, List.replicate q.count (s.ring r).config.fillWord⟩ :: more ∧
      (rest = [] → (s.ring r).state = .running → more = [] ∧
        t.ring r = { s.ring r with take := { (s.ring r).take with hold := [], head := .clear } } ∧
        (∀ p, p ≠ r → t.ring p = s.ring p)) ∧
      ((s.ring r).config.kind = .message → (s.ring r).occ = 0 →
        (s.ring r).take.record.present = false →
        ((s.ring r).state = .running ∨ (s.ring r).state = .draining) →
        ∀ judged, judged = (s.ring r).readsJudged s.timebase rest →
        ((s.ring r).state = .draining ∧ (s.ring r).put.phase = .none ∧ (s.ring r).put.hold = [] ∧
            s.noDownstream r → t.ring r = judged.1.atIdle ∧ SourceLost s t r) ∧
        (¬((s.ring r).state = .draining ∧ (s.ring r).put.phase = .none ∧ (s.ring r).put.hold = [] ∧
            s.noDownstream r) →
          t.ring r = judged.1 ∧ t.survey = s.survey ∧ t.globalFlags = s.globalFlags) ∧
        (∀ p, p ≠ r → t.ring p = s.ring p) ∧
        t = { s.answered (⟨q.requester, q.tag, .ok,
            List.replicate q.count (s.ring r).config.fillWord⟩ :: judged.2) with
          rings := t.rings
          survey := t.survey
          globalFlags := t.globalFlags
          driver := t.driver }))

/-- The check word (R74): from 0xFFFF, each word most significant bit first, one shift for each bit, with
the polynomial x^16 + x^12 + x^5 + 1 applied when the bit shifted out differs from the data bit. -/
def Obligations.CheckWordRunsBitByBit : Prop :=
  crcStart = 0xFFFF ∧ (∀ c, crcWords c [] = c) ∧
    (∀ c w ws, crcWords c (w :: ws) = crcWords (crcWord c w) ws) ∧
    ∀ (c : BitVec 16) (w : Word), crcWord c w =
      (List.range 32).foldl
        (fun (c : BitVec 16) i => if c.msb != w.getLsbD (31 - i) then (c <<< 1) ^^^ 0x1021 else c <<< 1) c

/-! ## Commits and alignment -/

/-- The last outcome of a COMMITTING slot on a RUNNING or DRAINING ring: the downstream, check and
alignment verdicts in their order, with the report of a mismatch to the Alignment Checker, the publish
with its stamp entry, its drop slip and the age-expiry timer, the flags of the alignment verdict and of a
gap, the answers, and the return to NONE (R41, R45, R62, R63, R77, R93, R95, R97, R125, R131). The last
write's own request is answered before the U request, which is the model's choice (log 6); the stamp entry
holds the marker of R49 (log 25); that the survey's sample is taken before a new head past its limit
departs is the model's reading (log 14), and what the accumulators hold once a cycle has ended its choice
(log 24). The premise on the stores is the invariant EveryStepKeepsStoresCanonical. Other outcomes, and the
requests held behind the slot, are in PutOutcomesAreMatched; a read parked at the publish is in
HeldRequestsAreServed. -/
def Obligations.CommitVerdictsInOrder : Prop :=
  ∀ (s : State) (r : RingId) (i : DTag) (q : Requester) (u : UTag) (timeout : Timer)
    (e : WriteEntry) (w : UReq) (position : Nat) (j : Judgement) (gap : Bool)
    (data : List Word),
    StoresCanonical s → s.resetN = true →
    s.tags[i] = .busy (.put r) q u (s.ring r).put.generation timeout →
    (s.ring r).put.writes.find? (fun e => e.requester == q && e.tag == u) = some e →
    (s.ring r).put.phase = .committing → (s.ring r).put.outstanding = 1 →
    (s.ring r).put.uRequest = some w → (s.ring r).put.hold = [] →
    (s.ring r).take.head.isParked = false →
    ((s.ring r).state = .running ∨ (s.ring r).state = .draining) →
    position = ((s.ring r).t + (s.ring r).occ) % (s.ring r).config.slots →
    j = (s.ring r).align.judge (s.ring r).config s.timebase (s.ring r).put.marker
      (s.ring r).put.sequence →
    ∃ t, exec (.downstreamResponse i .ok data) s = .next t ∧ t.tags = s.tags.set i .free ∧
      (t.ring r).put = { (s.ring r).put with
        phase := .none
        outstanding := 0
        uRequest := .none
        head := .clear
        writes := (s.ring r).put.writes.filter (fun e => !(e.requester == q && e.tag == u))
        refusal := (t.ring r).put.refusal } ∧
      (∃ status, t.upResponses = s.upResponses ++
          (if w.requester = q ∧ w.tag = u then [] else [⟨q, u, .ok, []⟩]) ++
          [⟨w.requester, w.tag, status, []⟩] ∧
        ((s.ring r).put.downFault = true → status = .error ∧ (t.ring r).occ = (s.ring r).occ ∧
          (t.ring r).events.counters = (s.ring r).events.counters ∧
          (t.ring r).put.refusal = (s.ring r).put.refusal) ∧
        ((s.ring r).put.downFault = false → (s.ring r).config.checkMode = .verify →
          (s.ring r).put.mismatch = true →
          status = .error ∧ (t.ring r).occ = (s.ring r).occ ∧
          (t.ring r).events.counters = ((s.ring r).events.report 0x10#18 1 1).counters ∧
          (t.ring r).events.flags &&& 0x10#18 = 0x10#18 ∧
          ((t.ring r).state = (s.ring r).state →
            (t.ring r).align = (s.ring r).align.mismatchReported (s.ring r).config s.timebase ∧
            (t.ring r).events.flags = (s.ring r).events.flags ||| 0x10#18 |||
              flagsIf ((s.ring r).align.losesByMismatch (s.ring r).config) 0x2#18) ∧
          (t.ring r).put.refusal =
            ⟨some .checkMismatch, w.requester, w.offset, s.timebase, true⟩) ∧
        ((s.ring r).put.downFault = false →
          ((s.ring r).config.checkMode ≠ .verify ∨ (s.ring r).put.mismatch = false) →
          status = .ok ∧ (t.ring r).put.refusal = (s.ring r).put.refusal ∧
          (t.ring r).events.flags &&& alignBits j.flag = alignBits j.flag ∧
          (j.decision = .drop → (t.ring r).occ = (s.ring r).occ ∧
            (t.ring r).events.counters =
              ((s.ring r).events.report (alignBits j.flag) 2 1).counters ∧
            t.stamps = s.stamps ∧
            ((s.ring r).state = .running → (t.ring r).align = j.after ∧
              (t.ring r).events.flags = (s.ring r).events.flags ||| alignBits j.flag)) ∧
          (j.decision ≠ .drop → (gap = true ↔ j.decision = .publishGap) →
            (t.ring r).events.counters[0] = advanceCounter (s.ring r).events.counters[0] 1 ∧
            (t.ring r).events.counters[3] =
              advanceCounter (s.ring r).events.counters[3] (if gap then 1 else 0) ∧
            (gap = true → (t.ring r).events.flags &&& 0x8#18 = 0x8#18) ∧
            ((t.ring r).occ ≠ 0 → (t.ring r).align = j.after ∧
              (t.ring r).events.flags ||| 0xA00#18 = (s.ring r).events.flags ||| 0xA00#18 |||
                flagsIf gap 0x8#18 ||| alignBits j.flag) ∧
            (∀ b, (s.ring r).blocks[position / 64]? = some b → ∀ n,
              sparseGet Stamp.zero t.stamps n =
                if n = b * 64 + position % 64 then (s.ring r).publishedStamp s.timebase gap
                else sparseGet Stamp.zero s.stamps n) ∧
            (s.survey.state = .sampling → s.survey.setup.trigger = .commit →
              s.survey.setup.source = r → (t.ring r).occ ≠ 0 →
              SampledTo s.survey s.globalFlags s.timebase
                (if (s.ring r).config.kind = .paced ∧
                    (s.ring r).config.highMark.toNat < (s.ring r).occ + 1 then
                  min ((s.ring r).occ + 1) (s.ring r).config.centre.toNat
                else (s.ring r).occ + 1) t.survey t.globalFlags) ∧
            ((s.ring r).config.kind = .message →
              (t.ring r).occ = (s.ring r).occ + 1 ∧ (t.ring r).t = (s.ring r).t ∧
              (t.ring r).align = j.after ∧
              (t.ring r).events.flags =
                (s.ring r).events.flags ||| flagsIf gap 0x8#18 ||| alignBits j.flag) ∧
            ((s.ring r).config.kind = .paced → (s.ring r).config.ageLimit ≠ 0 →
              (s.ring r).occ + 1 ≤ (s.ring r).config.highMark.toNat →
              ((s.ring r).occ ≠ 0 → (t.ring r).occ = (s.ring r).occ + 1 ∧
                (t.ring r).t = (s.ring r).t ∧ (t.ring r).ageTimer = (s.ring r).ageTimer) ∧
              ((s.ring r).occ = 0 → (s.ring r).t < (s.ring r).config.slots →
                (s.ring r).blocks[position / 64]? ≠ none →
                (t.ring r).occ = 1 ∧ (t.ring r).t = (s.ring r).t ∧
                (t.ring r).ageTimer =
                  some ⟨s.timebase, (s.ring r).config.ageLimit.toNat⟩)) ∧
            ((s.ring r).config.kind = .paced → (s.ring r).config.ageLimit ≠ 0 →
              (s.ring r).config.highMark.toNat < (s.ring r).occ + 1 →
              1 ≤ (s.ring r).config.centre.toNat →
              (s.ring r).config.centre.toNat ≤ (s.ring r).occ →
              (s.ring r).t < (s.ring r).config.slots →
              (s.ring r).blocks[position / 64]? ≠ none →
              ∀ (dropped : Nat) (head : Nat → Stamp),
              dropped = (s.ring r).occ + 1 - (s.ring r).config.centre.toNat →
              (∀ k, head k = t.stampAt r
                (((s.ring r).t + dropped + k) % (s.ring r).config.slots)) →
              (t.ring r).retained = true ∧
              (t.ring r).events.flags &&& 0x200#18 = 0x200#18 ∧
              (t.ring r).events.counters[8] =
                advanceCounter (s.ring r).events.counters[8] dropped ∧
              ∃ n < (s.ring r).config.centre.toNat,
                (t.ring r).occ = (s.ring r).config.centre.toNat - n ∧
                (t.ring r).t = ((s.ring r).t + dropped + n) % (s.ring r).config.slots ∧
                (n ≠ 0 → (t.ring r).events.flags &&& 0x800#18 = 0x800#18) ∧
                (t.ring r).events.counters[10] =
                  advanceCounter (s.ring r).events.counters[10] n ∧
                (∀ k < n, (s.ring r).config.ageLimit.toNat ≤
                  (s.timebase - (head k).commitTime).toNat) ∧
                (s.timebase - (head n).commitTime).toNat < (s.ring r).config.ageLimit.toNat ∧
                (t.ring r).ageTimer =
                  some ⟨(head n).commitTime, (s.ring r).config.ageLimit.toNat⟩) ∧
            ((s.ring r).config.kind = .paced → (s.ring r).config.ageLimit = 0 →
              ((s.ring r).occ + 1 ≤ (s.ring r).config.highMark.toNat →
                (t.ring r).occ = (s.ring r).occ + 1 ∧ (t.ring r).t = (s.ring r).t) ∧
              ((s.ring r).config.highMark.toNat < (s.ring r).occ + 1 →
                1 ≤ (s.ring r).config.centre.toNat →
                (s.ring r).config.centre.toNat ≤ (s.ring r).occ →
                (t.ring r).occ = (s.ring r).config.centre.toNat ∧
                (t.ring r).t = ((s.ring r).t + ((s.ring r).occ + 1 -
                  (s.ring r).config.centre.toNat)) % (s.ring r).config.slots ∧
                (t.ring r).retained = true ∧
                (t.ring r).events.flags &&& 0x200#18 = 0x200#18 ∧
                (t.ring r).events.counters[8] = advanceCounter (s.ring r).events.counters[8]
                  ((s.ring r).occ + 1 - (s.ring r).config.centre.toNat))))))

/-- The outcomes of put writes (R62, R64): one of the open slot or of a torn generation that ends
nothing; the end of a generation wait (R58), which takes the header that waited, the only request held;
a commit completion on a serving ring, whose slot is discarded, dropped or published, with what was held
behind it judged in the same event: a header held alone that opens the next slot or waits, or the whole queue
where the ring has no room or drains (R52, R63 step 5); and the completion on an ABORTING ring (R73). The
ring after a publish is given whole for MESSAGE rings without a parked read; for PACED rings, whose slip and
ageing CommitVerdictsInOrder states, the slot that the header opens; and for a read parked at the publish,
the take that it starts and the slot that the header then opens. The order of answers is the model's choice
(log 6), and so are the order of two refusal records of one event (log 27) and what the survey's
accumulators hold once a cycle has ended or been discarded (log 24); the stamp entry holds the marker of R49
(log 25), and a read handed down has generation 0 (log 18). That a torn slot hands its own count of writes to
the torn-write list is its reading (log 13). The premises PositionsSound and StoresCanonical are the
invariants EveryStepKeepsPositionsApart and EveryStepKeepsStoresCanonical. -/
def Obligations.PutOutcomesAreMatched : Prop :=
  ∀ (s : State) (r : RingId) (i : DTag) (q : Requester) (u : UTag) (g : BitVec 8) (timeout : Timer)
    (c : Instr) (status : Status) (tags : Vector TagEntry 64) (e : WriteEntry) (x : Ring)
    (answers : List UpResponse) (current : Prop),
    s.resetN = true → s.tags[i] = .busy (.put r) q u g timeout →
    s.outcomeBy i timeout c status tags →
    (s.ring r).put.writes.find? (fun e => e.requester == q && e.tag == u) = some e →
    x = (s.ring r).outcomeCounted q u g e status s.timebase →
    answers = (s.ring r).outcomeAnswer q u status →
    (current ↔ (s.ring r).put.slotOpen = true ∧ (s.ring r).put.generation = g) →
    ((current → x.put.phase = .committing → x.put.outstanding ≠ 0) →
      (¬current → x.put.head = .waiting → ¬x.put.generationClear) →
      ∃ t, exec c s = .next t ∧ SettledAt s t r i x ∧ (∀ p, p ≠ r → t.ring p = s.ring p) ∧
        t = { s.answered answers with
          tags := tags
          rings := t.rings
          survey := t.survey
          globalFlags := t.globalFlags
          driver := t.driver }) ∧
    (∀ (p : Requester) (v : UTag) (h : Word) (ws : List Word), ¬current →
      x.put.head = .waiting → x.put.generationClear → x.put.hold = [⟨p, v, 0, .words (h :: ws)⟩] →
      x.state = .running → x.config.burstFits h ws →
      (x.put.phase = .none ∧ x.roomFor) ∨ x.put.phase = .filling →
      ∃ t, exec c s = .next t ∧
        t.ring r = (if x.put.phase = .filling then x.restartedBy p v h ws s.timebase
          else x.openedBy p v h ws) ∧
        (∀ p, p ≠ r → t.ring p = s.ring p) ∧
        t = { s.answered answers with
          tags := tags
          rings := t.rings
          driver := t.driver
          issueQueue := s.issueQueue ++ [x.openingWrite r p v h ws] }) ∧
    (∀ (w : UReq), current → x.put.phase = .committing → x.put.outstanding = 0 →
      x.put.uRequest = some w →
      (∀ (j : Judgement) (published sampled : Prop) (y final : Ring) (verdict : Status)
          (more : List UpResponse) (issues : List Issue),
        (x.state = .running ∨ x.state = .draining) →
        j = x.align.judge x.config s.timebase x.put.marker x.put.sequence →
        (published ↔ x.reachesAlign = true ∧ j.decision ≠ .drop) →
        (published →
          PositionsSound s ∧ x.config.kind = .message ∧ x.take.head.isParked = false) →
        (sampled ↔ published ∧ s.survey.state = .sampling ∧ s.survey.setup.trigger = .commit ∧
          s.survey.setup.source = r) →
        (y, verdict) = x.verdictTaken w j s.timebase →
        y.QueueServed r s.timebase x.put.hold final more issues →
        ∃ t, exec c s = .next t ∧ (¬sampled → SettledAt s t r i final) ∧
          (sampled → t.ring r = final ∧
            SampledTo s.survey s.globalFlags s.timebase y.occ t.survey t.globalFlags) ∧
          (∀ p, p ≠ r → t.ring p = s.ring p) ∧ (¬published → t.stamps = s.stamps) ∧
          (published → StoresCanonical s → ∀ (position b : Nat),
            position = (x.t + x.occ) % x.config.slots → x.blocks[position / 64]? = some b → ∀ n,
            sparseGet Stamp.zero t.stamps n =
              if n = b * 64 + position % 64 then
                x.publishedStamp s.timebase (decide (j.decision = .publishGap))
              else sparseGet Stamp.zero s.stamps n) ∧
          t = { s.answered (answers ++ ⟨w.requester, w.tag, verdict, []⟩ :: more) with
            tags := tags
            rings := t.rings
            stamps := t.stamps
            survey := t.survey
            globalFlags := t.globalFlags
            driver := t.driver
            issueQueue := s.issueQueue ++ issues }) ∧
      (∀ (p : Requester) (v : UTag) (h : Word) (ws : List Word) (j : Judgement),
        x.config.kind = .paced → x.state = .running → x.reachesAlign = true →
        j = x.align.judge x.config s.timebase x.put.marker x.put.sequence → j.decision ≠ .drop →
        x.put.hold = [⟨p, v, 0, .words (h :: ws)⟩] → x.config.burstFits h ws →
        x.put.generationClear →
        ∃ (t : State) (y : Ring), exec c s = .next t ∧
          y = { t.ring r with put := x.closed.put } ∧
          (t.ring r).put = y.openedPut p v h ws ∧
          t.issueQueue = s.issueQueue ++ [y.openingWrite r p v h ws] ∧
          t.upResponses = s.upResponses ++ answers ++ [⟨w.requester, w.tag, .ok, []⟩] ∧
          (t.ring r).events.counters[0] = advanceCounter x.events.counters[0] 1 ∧
          (∀ p, p ≠ r → t.ring p = s.ring p)) ∧
      (∀ (p d : Requester) (v k : UTag) (n : Nat) (park : Timer) (h : Word) (ws : List Word)
          (j : Judgement) (stamp : Stamp) (number : BitVec 8), StoresCanonical s →
        x.config.kind = .message → x.state = .running → x.reachesAlign = true →
        j = x.align.judge x.config s.timebase x.put.marker x.put.sequence → j.decision ≠ .drop →
        x.occ = 0 → x.take.record.present = false → x.take.head = .parked park →
        x.take.hold = [⟨d, k, 0, n, false⟩] → 2 ≤ x.config.slots →
        x.t < x.config.slots → x.blocks[x.t / 64]? ≠ none →
        stamp = x.publishedStamp s.timebase (decide (j.decision = .publishGap)) →
        x.take.NumbersNext number →
        x.put.hold = [⟨p, v, 0, .words (h :: ws)⟩] → x.config.burstFits h ws →
        x.put.generationClear →
        ∃ (t : State) (y : Ring), exec c s = .next t ∧
          y = { t.ring r with put := x.closed.put } ∧
          (t.ring r).put = y.openedPut p v h ws ∧ (t.ring r).occ = 0 ∧
          (t.ring r).t = (x.t + 1) % x.config.slots ∧
          (t.ring r).take =
            x.takenBy ⟨d, k, 0, n, false⟩ x.t stamp number false s.timebase ∧
          t.issueQueue = s.issueQueue ++
            [x.startingRead r ⟨d, k, 0, n, false⟩ x.t stamp, y.openingWrite r p v h ws] ∧
          t.upResponses = s.upResponses ++ answers ++ [⟨w.requester, w.tag, .ok, []⟩] ∧
          (∀ p, p ≠ r → t.ring p = s.ring p)) ∧
      (x.state = .aborting → x.put.hold = [] →
        ∃ t, exec c s = .next t ∧
          SettledAt s t r i { x.closed with
            put := { x.closed.put with
              refusal := ⟨some .aborting, w.requester, w.offset, s.timebase, true⟩ }
            events := x.events.report 0x80#18 5 1 } ∧
          (∀ p, p ≠ r → t.ring p = s.ring p) ∧
          t = { s.answered (answers ++ [⟨w.requester, w.tag, .error, []⟩]) with
            tags := tags
            rings := t.rings
            survey := t.survey
            globalFlags := t.globalFlags
            driver := t.driver }))

/-- The decisions of the Alignment Checker in each of its states, with the state after and the flag
(R91 to R97, R100). -/
def Obligations.AlignmentDecidesByState : Prop :=
  ∀ (a : AlignChecker) (c : RingConfig) (now : Time) (marker : BitVec 16) (sq : BitVec 8)
    (armed : Option Timer),
    armed = (if c.alignMode = .auto then some ⟨now, c.searchTimeout.toNat * 1000⟩ else none) →
    (a.state = .off ∨ a.state = .bypassed → a.judge c now marker sq = ⟨.publish, a, none⟩) ∧
    (a.state = .search → marker = c.marker →
      a.judge c now marker sq = ⟨.drop, { a with state := .confirm, candidate := sq }, none⟩) ∧
    (a.state = .search → marker ≠ c.marker → a.judge c now marker sq = ⟨.drop, a, none⟩) ∧
    (a.state = .confirm → marker = c.marker → sq = a.candidate + 1 →
      a.judge c now marker sq = ⟨.publish,
        { a with
          state := .aligned
          expected := a.candidate + 2
          failures := 0
          errorCount := 0
          searchTimer := none }, some .alignFound⟩) ∧
    (a.state = .confirm → marker = c.marker → sq ≠ a.candidate + 1 →
      a.judge c now marker sq =
        ⟨.drop, { a with state := .confirm, candidate := sq, searchTimer := armed }, none⟩) ∧
    (a.state = .confirm → marker ≠ c.marker →
      a.judge c now marker sq = ⟨.drop, { a with state := .search, searchTimer := armed }, none⟩) ∧
    (a.state = .aligned → marker = c.marker →
      a.judge c now marker sq = ⟨if sq = a.expected then .publish else .publishGap,
        { a with expected := sq + 1, failures := 0 }, none⟩) ∧
    (a.state = .aligned → marker ≠ c.marker →
      (3 ≤ a.failures + 1 → a.judge c now marker sq = ⟨.drop,
        { a with
          state := .search
          lastLoss := .marker
          failures := 0
          errorCount := 0
          searchTimer := armed }, some .alignLost⟩) ∧
      (a.failures + 1 < 3 → c.errorThreshold.toNat < a.errorCount + 1 →
        a.judge c now marker sq = ⟨.drop,
          { a with
            state := .search
            lastLoss := .rate
            failures := 0
            errorCount := 0
            searchTimer := armed }, some .alignLost⟩) ∧
      (a.failures + 1 < 3 → a.errorCount + 1 ≤ c.errorThreshold.toNat →
        a.judge c now marker sq = ⟨.drop,
          { a with failures := a.failures + 1, errorCount := a.errorCount + 1 }, none⟩))

/-- The search timer in SEARCH or CONFIRM (R99) and the one-second boundary (R95, R140; the next
boundary counts from this one, log 22). Where neither is due nothing changes. That an expiry before
its time changes nothing is the model's choice (log 2, log 3). -/
def Obligations.SearchTimerAndSecondBoundary : Prop :=
  (∀ (s : State) (r : RingId) (timer : Timer), s.resetN = true →
    (s.ring r).align.searchTimer = some timer →
    (timer.due s.timebase = true →
      ((s.ring r).align.state = .search ∨ (s.ring r).align.state = .confirm) →
      ∃ t, exec (.searchTimerExpiry r) s = .next t ∧
        t.ring r = { s.ring r with
          align := { (s.ring r).align with state := .bypassed, searchTimer := none }
          events := { (s.ring r).events with flags := (s.ring r).events.flags ||| 0x4#18 } } ∧
        (∀ p, p ≠ r → t.ring p = s.ring p) ∧
        t = { s with rings := t.rings, driver := t.driver }) ∧
    (timer.due s.timebase = false → exec (.searchTimerExpiry r) s = .next s)) ∧
  ∀ (s : State) (r : RingId) (timer : Timer), s.resetN = true →
    (s.ring r).secondTimer = some timer →
    (timer.due s.timebase = true →
      exec (.oneSecondBoundary r) s = .next { s with
        rings := s.rings.set r { s.ring r with
          secondTimer := some ⟨timer.armedAt + BitVec.ofNat 32 timer.interval, 1000000⟩
          align :=
            if (s.ring r).state = .running ∨ (s.ring r).state = .draining then
              { (s.ring r).align with errorCount := 0 }
            else (s.ring r).align } }) ∧
    (timer.due s.timebase = false → exec (.oneSecondBoundary r) s = .next s)

/-! ## Taking slots -/

/-- An offset-0 read with no take present starts a take on the head slot of a MESSAGE ring and is served
from storage (R109, R110, R112, R113, R142). What the accumulators hold once a cycle has ended (log 24),
and the generation of the read handed down (log 18), are the model's choice. -/
def Obligations.TakeStartServesTheHead : Prop :=
  ∀ (s : State) (q : UpRequest) (r : RingId) (e : Stamp) (early : Bool) (number : BitVec 8),
    s.reachesTake q r 0 → (s.ring r).config.kind = .message →
    (s.ring r).take.record.present = false → (s.ring r).occ ≠ 0 → e = s.stampAt r (s.ring r).t →
    (early = true ↔ (s.ring r).EarlyAt s.timebase) → (s.ring r).take.NumbersNext number →
    ∃ t, exec (.upstreamRequest q) s = .next t ∧
      t.ring r = { (s.ring r).startReported s.timebase early with
        t := ((s.ring r).t + 1) % (s.ring r).config.slots
        occ := (s.ring r).occ - 1
        ageTimer := .none
        take := (s.ring r).takenBy (takeReqOf q 0) (s.ring r).t e number false s.timebase } ∧
      (∀ p, p ≠ r → t.ring p = s.ring p) ∧ TakeSampled s t r ((s.ring r).occ - 1) e ∧
      t = { s with
        outstanding := s.outstanding ++ [entryOf q]
        rings := t.rings
        survey := t.survey
        globalFlags := t.globalFlags
        driver := t.driver
        issueQueue := s.issueQueue ++
          [(s.ring r).startingRead r (takeReqOf q 0) (s.ring r).t e] }

/-- A read that finds no take and no slot: fill words, or parked on a RUNNING MESSAGE ring with a park
timeout (R109, R118); and a read that finds the hold queue occupied joins it, or finds it full (R107,
R108). -/
def Obligations.ReadsWithoutASlot : Prop :=
  (∀ (s : State) (q : UpRequest) (r : RingId) (k : Nat), s.reachesTake q r k →
    k < (s.ring r).config.slotWords → (s.ring r).take.record.present = false →
    s.idleCondition r = false →
    (k ≠ 0 ∨ ((s.ring r).config.kind = .message ∧ (s.ring r).occ = 0 ∧
        ((s.ring r).config.parkTimeout = 0 ∨ (s.ring r).state = .draining)) →
      exec (.upstreamRequest q) s = .next { s with
        upResponses := s.upResponses ++
          [⟨q.requester, q.tag, .ok, List.replicate q.count (s.ring r).config.fillWord⟩]
        rings := s.rings.set r { s.ring r with take := { (s.ring r).take with head := .clear } } }) ∧
    (k = 0 → (s.ring r).config.kind = .message → (s.ring r).occ = 0 →
      (s.ring r).config.parkTimeout ≠ 0 → (s.ring r).state = .running →
      exec (.upstreamRequest q) s = .next { s with
        outstanding := s.outstanding ++ [entryOf q]
        rings := s.rings.set r { s.ring r with
          take := { (s.ring r).take with
            hold := [⟨q.requester, q.tag, 0, q.count, false⟩]
            head := .parked ⟨s.timebase, (s.ring r).config.parkTimeout.toNat⟩ } } })) ∧
  ∀ (s : State) (q : UpRequest) (r : RingId) (k : Nat), s.takesIn q → s.classify q = .take r k →
    (s.ring r).takeCheckCause q k = .none → k ≤ (s.ring r).config.slotWords →
    s.idleCondition r = false →
    ((s.ring r).take.hold ≠ [] → (s.ring r).take.hold.length < 4 →
      exec (.upstreamRequest q) s = .next { s with
        outstanding := s.outstanding ++ [entryOf q]
        rings := s.rings.set r { s.ring r with
          take := { (s.ring r).take with
            hold := (s.ring r).take.hold ++
              [⟨q.requester, q.tag, k, q.count, decide (k = (s.ring r).config.slotWords)⟩] } } }) ∧
    (4 ≤ (s.ring r).take.hold.length →
      ∃ t, exec (.upstreamRequest q) s = .next t ∧
        t.ring r = { s.ring r with
          take := { (s.ring r).take with
            refusal := ⟨some .queueFull, q.requester, k, s.timebase, true⟩ }
          events := (s.ring r).events.report 0x100#18 6 1 } ∧
        (∀ p, p ≠ r → t.ring p = s.ring p) ∧
        t = { s with
          upResponses := s.upResponses ++ [⟨q.requester, q.tag, .error, []⟩]
          rings := t.rings
          driver := t.driver })

/-- A read while a take is present (R81, R82, R112, R113), by take check. The generation of the read handed
down is the model's choice (log 18). -/
def Obligations.PresentTakesServeReads : Prop :=
  ∀ (s : State) (q : UpRequest) (r : RingId) (k : Nat) (x : TakeRecord) (words : Nat),
    s.reachesTake q r k → k < (s.ring r).config.slotWords → x = (s.ring r).take.record →
    x.present = true → words = min (k + q.count) (x.lastUsed + 1) - k →
    (k ≤ x.lastUsed →
      ((s.ring r).config.takeCheck = false ∨
        (k = x.cursor ∧ k ≠ 0 ∧ ∀ d ∈ (s.ring r).take.reads, d.number ≠ x.number) ∨
        (k = 0 ∧ ∀ d ∈ (s.ring r).take.reads, d.number ≠ x.number)) →
      exec (.upstreamRequest q) s = .next { s with
        outstanding := s.outstanding ++ [entryOf q]
        issueQueue := s.issueQueue ++
          [⟨.take r, q.requester, q.tag, 0, .read,
            (s.ring r).config.storageBase +
              BitVec.ofNat 32 (4 * (x.position * (s.ring r).config.slotWords + k)),
            words, [], []⟩]
        rings := s.rings.set r { s.ring r with
          take := { (s.ring r).take with
            record :=
              if (s.ring r).config.takeCheck ∧ k = 0 then { x with cursor := 0, crc := 0xFFFF } else x
            reads := (s.ring r).take.reads ++
              [⟨q.requester, q.tag, k, q.count, x.number, decide (x.lastUsed < k + q.count), words⟩]
            head := .clear } } }) ∧
    (x.lastUsed < k → (s.ring r).config.takeCheck = false →
      exec (.upstreamRequest q) s = .next { s with
        upResponses := s.upResponses ++
          [⟨q.requester, q.tag, .ok, List.replicate q.count (s.ring r).config.fillWord⟩]
        rings := s.rings.set r { s.ring r with take := { (s.ring r).take with head := .clear } } }) ∧
    ((s.ring r).config.takeCheck = true → (∃ d ∈ (s.ring r).take.reads, d.number = x.number) →
      exec (.upstreamRequest q) s = .next { s with
        outstanding := s.outstanding ++ [entryOf q]
        rings := s.rings.set r { s.ring r with
          take := { (s.ring r).take with
            hold := [⟨q.requester, q.tag, k, q.count, false⟩]
            head := .waiting } } }) ∧
    ((s.ring r).config.takeCheck = true → (∀ d ∈ (s.ring r).take.reads, d.number ≠ x.number) →
      k ≠ 0 → k ≠ x.cursor →
      ∃ t, exec (.upstreamRequest q) s = .next t ∧
        t.ring r = { s.ring r with
          take := { (s.ring r).take with
            head := .clear
            refusal := ⟨some .outOfOrder, q.requester, k, s.timebase, true⟩ }
          events := (s.ring r).events.report 0x100#18 6 1 } ∧
        (∀ p, p ≠ r → t.ring p = s.ring p) ∧
        t = { s with
          upResponses := s.upResponses ++ [⟨q.requester, q.tag, .error, []⟩]
          rings := t.rings
          driver := t.driver })

/-- The OK outcome of a read (R83, R84, R114, R115): what is answered, and what becomes of the take. The
response is matched to the read whatever words it carries (R14): of its record part a read takes the first
words carried, and each word that is missing is a free value, the model's choice (log 26), on whose value
nothing here rests. The premise of the clause on occ is the invariant EveryStepKeepsPositionsApart. -/
def Obligations.ReadOutcomesEndTheTake : Prop :=
  ∀ (s : State) (r : RingId) (i : DTag) (q : Requester) (u : UTag) (g : BitVec 8) (timeout : Timer)
    (e : ReadEntry) (data words : List Word) (x : TakeRecord) (crc : BitVec 16),
    s.resetN = true → s.tags[i] = .busy (.take r) q u g timeout →
    (s.ring r).take.reads.find? (fun e => e.requester == q && e.tag == u) = some e →
    (s.ring r).take.hold = [] → (s.ring r).take.head = .clear →
    (s.ring r).put.head.isParked = false → x = (s.ring r).take.record →
    words = data.take e.words ++ (List.range (e.words - data.length)).map
      (fun n => Config.freeWord (s.freeCount + n)) →
    crc = crcWords x.crc words.dropLast →
    ∃ t, exec (.downstreamResponse i .ok data) s = .next t ∧
      (data.length = e.words → words = data) ∧
      t.freeCount = s.freeCount + (e.words - data.length) ∧
      (PositionsSound s →
        (t.ring r).occ = if (t.ring r).state = .idle then 0 else (s.ring r).occ) ∧
      (t.ring r).t = (s.ring r).t ∧
      (∃ status, t.upResponses = s.upResponses ++
        [⟨e.requester, e.tag, status,
          if status = .ok then words ++ List.replicate (e.count - e.words) (s.ring r).config.fillWord
          else []⟩] ∧
        (status = .error ↔ x.present = true ∧ x.number = e.number ∧
          (s.ring r).config.takeCheck = true ∧ e.coversU = true ∧
          (words.getLastD 0).extractLsb' 0 16 ≠ crc) ∧
        (status = .error →
          (t.ring r).take.refusal = ⟨some .checkMismatch, e.requester, e.offset, s.timebase, true⟩ ∧
          (t.ring r).events.flags &&& 0x20#18 = 0x20#18 ∧
          (t.ring r).events.counters = ((s.ring r).events.report 0x20#18 7
            1).counters) ∧
        (status = .ok → (t.ring r).take.refusal = (s.ring r).take.refusal ∧
          (t.ring r).events.counters = (s.ring r).events.counters)) ∧
      (t.ring r).take = { (s.ring r).take with
        reads := (s.ring r).take.reads.filter (fun e => !(e.requester == q && e.tag == u))
        refusal := (t.ring r).take.refusal
        record :=
          if ¬(x.present = true ∧ x.number = e.number) then x
          else if e.coversU then { TakeRecord.reset with number := x.number }
          else if (s.ring r).config.takeCheck then
            { x with
              crc := crcWords x.crc words
              cursor := min (e.offset + e.count) x.lastUsed }
          else x }

/-- The ERROR outcome of a read leaves the take (R116), and RELEASE ends it (R117). The generation of the
read handed down is the model's choice (log 18). -/
def Obligations.FailedReadsAndRelease : Prop :=
  (∀ (s : State) (r : RingId) (i : DTag) (q : Requester) (u : UTag) (g : BitVec 8) (timeout : Timer)
    (e : ReadEntry) (c : Instr), s.resetN = true → s.tags[i] = .busy (.take r) q u g timeout →
    (s.ring r).take.reads.find? (fun e => e.requester == q && e.tag == u) = some e →
    (s.ring r).take.hold = [] → (s.ring r).take.head = .clear →
    ((∃ data, c = .downstreamResponse i .error data) ∨
      (c = .responseTimeout i ∧ timeout.due s.timebase = true)) →
    ∃ t, exec c s = .next t ∧
      t.upResponses = s.upResponses ++ [⟨e.requester, e.tag, .error, []⟩] ∧
      (t.ring r).take = { (s.ring r).take with
        reads := (s.ring r).take.reads.filter (fun e => !(e.requester == q && e.tag == u))
        refusal := ⟨some .downstream, e.requester, e.offset, s.timebase, true⟩ } ∧
      (t.ring r).events.flags &&& 0x8000#18 = 0x8000#18 ∧
      (t.ring r).events.counters =
        ((s.ring r).events.report 0x8000#18 14 1).counters) ∧
  ∀ (s : State) (q : UpRequest) (r : RingId), s.reachesTake q r (s.ring r).config.slotWords →
    ((s.ring r).take.record.present = true → (s.ring r).put.head.isParked = false →
      exec (.upstreamRequest q) s = .next { s with
        outstanding := s.outstanding ++ [entryOf q]
        issueQueue := s.issueQueue ++
          [⟨.take r, q.requester, q.tag, 0, .read,
            (s.ring r).config.storageBase + BitVec.ofNat 32
              (4 * ((s.ring r).take.record.position * (s.ring r).config.slotWords)), 1, [], []⟩]
        rings := s.rings.set r { s.ring r with
          take := { (s.ring r).take with
            record := { TakeRecord.reset with number := (s.ring r).take.record.number }
            reads := (s.ring r).take.reads ++
              [⟨q.requester, q.tag, (s.ring r).config.slotWords, q.count,
                (s.ring r).take.record.number, false, 1⟩]
            head := .clear } } }) ∧
    ((s.ring r).take.record.present = false → s.idleCondition r = false →
      exec (.upstreamRequest q) s = .next { s with
        upResponses := s.upResponses ++
          [⟨q.requester, q.tag, .ok, [(s.ring r).config.fillWord]⟩]
        rings := s.rings.set r { s.ring r with take := { (s.ring r).take with head := .clear } } })

/-- Requests that are held are served when what held them ends: a read parked on an empty MESSAGE ring by
the publish (R41, R111, R118), with the survey's sample taken before its take start (R152); a parked
header by the release of the in-take slot, at the outcome of the read of U (R67, R115) and at a RELEASE
(R117), unless its generation is still held (R58); and a read that waits for an earlier read of its take
once that read, and no other, has been answered (R82, R107; that such a wait outlasts the revocation of
the take is the model's reading, log 17). The held request is the only one of its queue. The stamp entry
holds the marker of R49 (log 25), and the answers of the commit come in the order of log 6. What the
accumulators hold once a cycle has ended (log 24), and the generation of a read handed down (log 18), are
the model's choice. -/
def Obligations.HeldRequestsAreServed : Prop :=
  (∀ (s : State) (r : RingId) (i : DTag) (q p : Requester) (u v : UTag) (timeout park : Timer)
      (e : WriteEntry) (w : UReq) (n : Nat) (number : BitVec 8) (gap : Bool) (stamp : Stamp)
      (data : List Word) (d : Decision),
    StoresCanonical s → s.resetN = true →
    s.tags[i] = .busy (.put r) q u (s.ring r).put.generation timeout →
    (s.ring r).put.writes.find? (fun e => e.requester == q && e.tag == u) = some e →
    (s.ring r).put.phase = .committing → (s.ring r).put.outstanding = 1 →
    (s.ring r).put.downFault = false →
    ((s.ring r).config.checkMode ≠ .verify ∨ (s.ring r).put.mismatch = false) →
    (s.ring r).put.uRequest = some w → (s.ring r).put.hold = [] → (s.ring r).state = .running →
    (s.ring r).config.kind = .message → (s.ring r).occ = 0 →
    (s.ring r).t < (s.ring r).config.slots → (s.ring r).blocks[(s.ring r).t / 64]? ≠ none →
    (s.ring r).take.record.present = false → (s.ring r).take.head = .parked park →
    (s.ring r).take.hold = [⟨p, v, 0, n, false⟩] →
    d = ((s.ring r).align.judge (s.ring r).config s.timebase (s.ring r).put.marker
      (s.ring r).put.sequence).decision →
    d ≠ .drop → (gap = true ↔ d = .publishGap) →
    stamp = (s.ring r).publishedStamp s.timebase gap → (s.ring r).take.NumbersNext number →
    ∃ t, exec (.downstreamResponse i .ok data) s = .next t ∧
      (t.ring r).t = ((s.ring r).t + 1) % (s.ring r).config.slots ∧ (t.ring r).occ = 0 ∧
      (t.ring r).take =
        (s.ring r).takenBy ⟨p, v, 0, n, false⟩ (s.ring r).t stamp number false s.timebase ∧
      t.issueQueue = s.issueQueue ++
        [(s.ring r).startingRead r ⟨p, v, 0, n, false⟩ (s.ring r).t stamp] ∧
      t.upResponses = s.upResponses ++
        (if w.requester = q ∧ w.tag = u then [] else [⟨q, u, .ok, []⟩]) ++
        [⟨w.requester, w.tag, .ok, []⟩] ∧
      (s.survey.setup.trigger = .take → TakeSampled s t r 0 stamp) ∧
      (s.survey.state = .sampling → s.survey.setup.trigger = .commit →
        s.survey.setup.source = r →
        SampledTo s.survey s.globalFlags s.timebase 1 t.survey t.globalFlags)) ∧
  (∀ (s : State) (r : RingId) (i : DTag) (q p : Requester) (u v : UTag) (g : BitVec 8)
      (timeout park : Timer) (e : ReadEntry) (h : Word) (ws data : List Word), s.resetN = true →
    s.tags[i] = .busy (.take r) q u g timeout →
    (s.ring r).take.reads.find? (fun e => e.requester == q && e.tag == u) = some e →
    (s.ring r).take.hold = [] → (s.ring r).take.record.present = true →
    (s.ring r).take.record.number = e.number → e.coversU = true →
    (s.ring r).config.kind = .message → (s.ring r).state = .running →
    (s.ring r).put.head = .parked park → (s.ring r).put.hold = [⟨p, v, 0, .words (h :: ws)⟩] →
    (s.ring r).put.phase = .none → (s.ring r).config.burstFits h ws →
    (s.ring r).occ + 1 ≤ (s.ring r).config.slots →
    ∃ t, exec (.downstreamResponse i .ok data) s = .next t ∧
      (t.ring r).take.record = (s.ring r).take.ended.record ∧
      ((s.ring r).put.generationClear →
        (t.ring r).put = (s.ring r).openedPut p v h ws ∧
        t.issueQueue = s.issueQueue ++ [(s.ring r).openingWrite r p v h ws]) ∧
      (¬(s.ring r).put.generationClear →
        (t.ring r).put = { (s.ring r).put with head := .waiting } ∧
        t.issueQueue = s.issueQueue)) ∧
  (∀ (s : State) (q : UpRequest) (r : RingId) (p : Requester) (v : UTag) (park : Timer) (h : Word)
      (ws : List Word) (x : Ring) (read : Issue),
    s.reachesTake q r (s.ring r).config.slotWords → (s.ring r).take.record.present = true →
    (s.ring r).config.kind = .message → (s.ring r).state = .running →
    (s.ring r).put.head = .parked park → (s.ring r).put.hold = [⟨p, v, 0, .words (h :: ws)⟩] →
    (s.ring r).put.phase = .none → (s.ring r).config.burstFits h ws →
    (s.ring r).occ + 1 ≤ (s.ring r).config.slots →
    x = { s.ring r with
      take := { (s.ring r).take.ended with
        reads := (s.ring r).take.reads ++
          [⟨q.requester, q.tag, (s.ring r).config.slotWords, q.count,
            (s.ring r).take.record.number, false, 1⟩]
        head := .clear } } →
    read = ⟨.take r, q.requester, q.tag, 0, .read,
      (s.ring r).config.storageBase + BitVec.ofNat 32
        (4 * ((s.ring r).take.record.position * (s.ring r).config.slotWords)), 1, [], []⟩ →
    ((s.ring r).put.generationClear → exec (.upstreamRequest q) s = .next { s with
      outstanding := s.outstanding ++ [entryOf q]
      issueQueue := s.issueQueue ++ [read, x.openingWrite r p v h ws]
      rings := s.rings.set r (x.openedBy p v h ws) }) ∧
    (¬(s.ring r).put.generationClear → exec (.upstreamRequest q) s = .next { s with
      outstanding := s.outstanding ++ [entryOf q]
      issueQueue := s.issueQueue ++ [read]
      rings := s.rings.set r { x with put := { x.put with head := .waiting } } })) ∧
  ∀ (s : State) (r : RingId) (i : DTag) (q : Requester) (u : UTag) (g : BitVec 8)
      (timeout : Timer) (c : Instr) (status : Status) (tags : Vector TagEntry 64) (e : ReadEntry)
      (p : TakeReq) (x : TakeRecord) (words : Nat), s.resetN = true →
    s.tags[i] = .busy (.take r) q u g timeout → s.outcomeBy i timeout c status tags →
    (s.ring r).take.reads.find? (fun e => e.requester == q && e.tag == u) = some e →
    (s.ring r).take.head = .waiting → (s.ring r).take.hold = [p] →
    ((s.ring r).state = .running ∨ (s.ring r).state = .draining) →
    x = (s.ring r).take.record → words = min (p.offset + p.count) (x.lastUsed + 1) - p.offset →
    ((∃ d ∈ (s.ring r).take.reads, d.number = x.number ∧ ¬(d.requester = q ∧ d.tag = u)) →
      ∃ t, exec c s = .next t ∧ (t.ring r).take.hold = [p] ∧ (t.ring r).take.head = .waiting) ∧
    ((∀ d ∈ (s.ring r).take.reads, d.number = x.number → d.requester = q ∧ d.tag = u) →
      (s.ring r).config.takeCheck = true → x.present = true → x.number = e.number →
      e.coversU = false → status = .ok → p.release = false → p.offset ≠ 0 →
      p.offset = min (e.offset + e.count) x.lastUsed →
      ∃ t, exec c s = .next t ∧ (t.ring r).take.hold = [] ∧ (t.ring r).take.head = .clear ∧
        (t.ring r).take.reads =
          (s.ring r).take.reads.filter (fun e => !(e.requester == q && e.tag == u)) ++
            [⟨p.requester, p.tag, p.offset, p.count, x.number,
              decide (x.lastUsed < p.offset + p.count), words⟩] ∧
        t.issueQueue = s.issueQueue ++
          [⟨.take r, p.requester, p.tag, 0, .read,
            (s.ring r).config.storageBase +
              BitVec.ofNat 32 (4 * (x.position * (s.ring r).config.slotWords + p.offset)),
            words, [], []⟩])

/-! ## PACED rings and cadence -/

/-- The take decision of a PACED ring by its paced take state, its state and occ (R127, R128, R129), with
the age-expiry timer armed for the new head (R131); a new head already past its limit departs in the same
event, with every further one past it, whose order is the model's reading (log 14). What the accumulators
hold once a cycle has ended (log 24), and the generation of a read handed down (log 18), are its choice. -/
def Obligations.PacedTakesAreDecided : Prop :=
  ∀ (s : State) (q : UpRequest) (r : RingId) (e : Stamp) (early : Bool) (number : BitVec 8),
    s.reachesTake q r 0 → (s.ring r).config.kind = .paced →
    (s.ring r).take.record.present = false →
    (early = true ↔ (s.ring r).EarlyAt s.timebase) → (s.ring r).take.NumbersNext number →
    (((s.ring r).state = .running ∧ (s.ring r).paced = .priming ∧
          (s.ring r).occ < (s.ring r).config.centre.toNat) ∨
        ((s.ring r).state = .draining ∧ (s.ring r).occ = 0) → s.idleCondition r = false →
      exec (.upstreamRequest q) s = .next { s with
        upResponses := s.upResponses ++
          [⟨q.requester, q.tag, .ok, List.replicate q.count (s.ring r).config.fillWord⟩]
        rings := s.rings.set r { s.ring r with take := { (s.ring r).take with head := .clear } } }) ∧
    (∀ p, p = ((s.ring r).t + (s.ring r).config.slots - 1) % (s.ring r).config.slots →
      (s.ring r).state = .running →
      ((s.ring r).paced = .flowing ∧ (s.ring r).occ = 0) ∨
        ((s.ring r).paced = .replaying ∧ (s.ring r).occ < (s.ring r).config.centre.toNat) →
      e = s.stampAt r p →
      ∃ t, exec (.upstreamRequest q) s = .next t ∧
        t.ring r = { s.ring r with
          paced := .replaying
          take := (s.ring r).takenBy (takeReqOf q 0) p e number true s.timebase
          cadence := ((s.ring r).startReported s.timebase early).cadence
          events := ((s.ring r).startReported s.timebase early).events.report 0x400#18 9
            1 } ∧
        (∀ p, p ≠ r → t.ring p = s.ring p) ∧
        t = { s with
          outstanding := s.outstanding ++ [entryOf q]
          rings := t.rings
          driver := t.driver
          issueQueue := s.issueQueue ++ [(s.ring r).startingRead r (takeReqOf q 0) p e] }) ∧
    (∀ (next : Time) (last : Prop) [Decidable last],
      (s.ring r).state = .draining ∨
        ((s.ring r).state = .running ∧ ((s.ring r).paced = .flowing ∨
          (((s.ring r).paced = .priming ∨ (s.ring r).paced = .replaying) ∧
            (s.ring r).config.centre.toNat ≤ (s.ring r).occ))) → (s.ring r).occ ≠ 0 →
      e = s.stampAt r (s.ring r).t →
      next = (s.stampAt r (((s.ring r).t + 1) % (s.ring r).config.slots)).commitTime →
      (last ↔ (s.ring r).config.ageLimit = 0 ∨ (s.ring r).occ = 1) →
      ∃ t, exec (.upstreamRequest q) s = .next t ∧ (∀ p, p ≠ r → t.ring p = s.ring p) ∧
        TakeSampled s t r ((s.ring r).occ - 1) e ∧
        (last ∨ (s.timebase - next).toNat < (s.ring r).config.ageLimit.toNat →
          t.ring r = { (s.ring r).startReported s.timebase early with
            t := ((s.ring r).t + 1) % (s.ring r).config.slots
            occ := (s.ring r).occ - 1
            retained := true
            paced := .flowing
            ageTimer := if last then none
              else some ⟨next, (s.ring r).config.ageLimit.toNat⟩
            take := (s.ring r).takenBy (takeReqOf q 0) (s.ring r).t e number false s.timebase }) ∧
        (¬last → (s.ring r).config.ageLimit.toNat ≤ (s.timebase - next).toNat →
          ∃ n, 1 ≤ n ∧ n < (s.ring r).occ ∧
            (∀ k < n, (s.ring r).config.ageLimit.toNat ≤ (s.timebase -
              (s.stampAt r (((s.ring r).t + 1 + k) % (s.ring r).config.slots)).commitTime).toNat) ∧
            (n + 1 < (s.ring r).occ → (s.timebase -
              (s.stampAt r (((s.ring r).t + 1 + n) % (s.ring r).config.slots)).commitTime).toNat <
                (s.ring r).config.ageLimit.toNat) ∧
            t.ring r = { (s.ring r).startReported s.timebase early with
              t := ((s.ring r).t + 1 + n) % (s.ring r).config.slots
              occ := (s.ring r).occ - 1 - n
              retained := true
              paced := .flowing
              ageTimer :=
                if n + 1 = (s.ring r).occ then none
                else some
                  ⟨(s.stampAt r (((s.ring r).t + 1 + n) % (s.ring r).config.slots)).commitTime,
                    (s.ring r).config.ageLimit.toNat⟩
              take := (s.ring r).takenBy (takeReqOf q 0) (s.ring r).t e number false s.timebase
              events :=
                ((s.ring r).startReported s.timebase early).events.report 0x800#18 10 n }) ∧
        t = { s with
          outstanding := s.outstanding ++ [entryOf q]
          rings := t.rings
          survey := t.survey
          globalFlags := t.globalFlags
          driver := t.driver
          issueQueue := s.issueQueue ++
            [(s.ring r).startingRead r (takeReqOf q 0) (s.ring r).t e] })

/-- AGE_EXPIRY (R131, R132): the head departs as AGED_OUT, with every further head already past its
limit, and the timer is armed for the head that is left. That an expiry before its time changes
nothing is the model's choice (log 2, log 3). -/
def Obligations.AgeExpiryDepartsTheHead : Prop :=
  ∀ (s : State) (r : RingId) (timer : Timer), s.resetN = true →
    (s.ring r).ageTimer = some timer →
    (timer.due s.timebase = false → exec (.ageExpiry r) s = .next s) ∧
    (timer.due s.timebase = true → (s.ring r).occ ≠ 0 → (s.ring r).config.kind = .paced →
      (s.ring r).config.ageLimit ≠ 0 →
      ((s.ring r).state = .running ∨ (s.ring r).state = .draining) →
      ∃ t n, exec (.ageExpiry r) s = .next t ∧ 1 ≤ n ∧ n ≤ (s.ring r).occ ∧
        (t.ring r).occ = (s.ring r).occ - n ∧
        (t.ring r).t = ((s.ring r).t + n) % (s.ring r).config.slots ∧
        (t.ring r).events.flags &&& 0x800#18 = 0x800#18 ∧
        (t.ring r).events.counters[10] = advanceCounter (s.ring r).events.counters[10] n ∧
        (∀ j, 1 ≤ j → j < n →
          (s.ring r).config.ageLimit.toNat ≤ (s.timebase -
            (s.stampAt r (((s.ring r).t + j) % (s.ring r).config.slots)).commitTime).toNat) ∧
        (n < (s.ring r).occ →
          (s.timebase -
            (s.stampAt r (((s.ring r).t + n) % (s.ring r).config.slots)).commitTime).toNat <
            (s.ring r).config.ageLimit.toNat ∧
          (t.ring r).ageTimer = some
            ⟨(s.stampAt r (((s.ring r).t + n) % (s.ring r).config.slots)).commitTime,
              (s.ring r).config.ageLimit.toNat⟩) ∧
        (n = (s.ring r).occ → (t.ring r).ageTimer = none) ∧
        ((t.ring r).state = (s.ring r).state → (t.ring r).retained = true ∧
          (t.ring r).take = (s.ring r).take ∧ (t.ring r).put = (s.ring r).put ∧
          (t.ring r).paced = (s.ring r).paced ∧ t.survey = s.survey) ∧
        t.upResponses = s.upResponses ∧ t.stamps = s.stamps)

/-- LATE_TIMER_EXPIRY on a RUNNING or DRAINING ring (R143), the declaration of an absent consumer
(R144) and the refusal of a parked header at it (R69). That an expiry before its time changes
nothing is the model's choice (log 2, log 3), and so is the order of the answers (log 6); that the timer is
armed again from the Timebase value at which the expiry is taken is its reading (log 22). Behind the parked
header the whole queue is judged, with the consumer absent: no header parks, so the queue empties (R52,
R57). -/
def Obligations.LateExpiriesAreCounted : Prop :=
  ∀ (s : State) (r : RingId) (timer : Timer) (next : Nat) (counted : Ring) (absent : Prop)
    [Decidable absent],
    s.resetN = true → ((s.ring r).state = .running ∨ (s.ring r).state = .draining) →
    (s.ring r).cadence.lateTimer = some timer → (s.ring r).config.cadenceMax ≠ 0 →
    next = (if (s.ring r).cadence.lateCount = (s.ring r).config.absenceLimit.toNat then
      (s.ring r).cadence.lateCount else (s.ring r).cadence.lateCount + 1) →
    (absent ↔ (s.ring r).cadence.lateCount ≠ (s.ring r).config.absenceLimit.toNat ∧
      next = (s.ring r).config.absenceLimit.toNat ∧ (s.ring r).cadence.absent = false) →
    counted = { s.ring r with
      cadence := { (s.ring r).cadence with
        lateTimer := some ⟨s.timebase, (s.ring r).config.cadenceMax.toNat⟩
        lateCount := next
        lastKind := .late
        absent := if absent then true else (s.ring r).cadence.absent }
      events := { (s.ring r).events.report 0x2000#18 12 1 with
        flags := (s.ring r).events.flags ||| 0x2000#18 ||| (if absent then 0x4000#18 else 0) } } →
    (timer.due s.timebase = false → exec (.lateTimerExpiry r) s = .next s) ∧
    (timer.due s.timebase = true → (s.ring r).occ = 0 →
      exec (.lateTimerExpiry r) s = .next { s with
        rings := s.rings.set r { s.ring r with
          cadence := { (s.ring r).cadence with
            lateTimer := some ⟨s.timebase, (s.ring r).config.cadenceMax.toNat⟩ } } }) ∧
    (timer.due s.timebase = true → (s.ring r).occ ≠ 0 →
      (¬absent ∨ (s.ring r).put.head.isParked = false) →
      ∃ t, exec (.lateTimerExpiry r) s = .next t ∧
        t.ring r = counted ∧
        (∀ p, p ≠ r → t.ring p = s.ring p) ∧
        t = { s with rings := t.rings, driver := t.driver }) ∧
    (timer.due s.timebase = true → (s.ring r).occ ≠ 0 → absent → (s.ring r).config.kind = .message →
      ∀ (park : Timer) (q : PutReq) (rest : List PutReq), (s.ring r).put.head = .parked park →
      (s.ring r).put.hold = q :: rest →
      ∃ t more, exec (.lateTimerExpiry r) s = .next t ∧
        t.upResponses = s.upResponses ++ ⟨q.requester, q.tag, .error, []⟩ :: more ∧
        (t.ring r).cadence.absent = true ∧
        (t.ring r).events.flags &&& 0x6040#18 = 0x6040#18 ∧
        (rest = [] → more = [] ∧ (t.ring r).put.hold = [] ∧ (t.ring r).put.head = .clear ∧
          (t.ring r).put.refusal = ⟨some .consumerAbsent, q.requester, q.offset, s.timebase, true⟩) ∧
        ((s.ring r).put.phase = .none → ¬(s.ring r).roomFor →
          ∀ judged, judged =
            (counted.refusedWith q .consumerAbsent s.timebase).queueJudged s.timebase rest →
          t.ring r = judged.1 ∧ (t.ring r).put.hold = [] ∧ (∀ p, p ≠ r → t.ring p = s.ring p) ∧
          t = { s.answered (⟨q.requester, q.tag, .error, []⟩ :: judged.2) with
            rings := t.rings
            driver := t.driver }))

/-! ## The survey -/

/-- SURVEY_ARM and SURVEY_DISARM (R149, R150): their results in order, and what each does; a refused
one changes only the command and result fields. The answer of the port where it stands at the
command field is the model's choice (log 16). So are the code kept of a refused command (log 21), that
the accumulators discarded by DISARM are 0, and what they hold after a cycle that ends at the ARM (log
24). -/
def Obligations.ArmAndDisarmAreJudged : Prop :=
  ∀ (s : State), s.resetN = true →
    (∃ t result, exec .surveyArm s = .next t ∧
      t.port = { s.commandPort (.global .command) with command := 2, result := result } ∧
      firstOf .accepted
        [(s.survey.state ≠ .idle, .wrongState),
         ((s.survey.setup.quantity = .dwell ∧ s.survey.setup.trigger ≠ .take) ∨
           s.survey.setup.highLimit < s.survey.setup.lowLimit, .badSetup),
         ((s.ring s.survey.setup.source).state = .idle ∨
           (s.ring s.survey.setup.source).state = .aborting, .sourceIdle)] result ∧
      (result ≠ .accepted → t = { s with port := t.port }) ∧
      (result = .accepted → s.survey.setup.trigger = .commit ∨ s.survey.setup.trigger = .take →
        t = { s with
          port := t.port
          survey := { s.survey with state := .sampling, acc := Accumulators.zero } }) ∧
      (result = .accepted →
        s.survey.setup.trigger = .syncRise ∨ s.survey.setup.trigger = .syncFall →
        t = { s with
          port := t.port
          survey := { s.survey with state := .armed, acc := Accumulators.zero } }) ∧
      (result = .accepted → s.survey.setup.trigger = .timer →
        SampledTo { s.survey with state := .sampling, acc := Accumulators.zero } s.globalFlags
          s.timebase (s.ring s.survey.setup.source).occ t.survey t.globalFlags ∧
        t = { s with
          port := t.port
          survey := t.survey
          globalFlags := t.globalFlags
          driver := t.driver })) ∧
    exec .surveyDisarm s = .next { s with
      port := { s.commandPort (.global .command) with
        command := 3
        result := if s.survey.state = .idle then .wrongState else .accepted }
      survey :=
        if s.survey.state = .idle then s.survey
        else { s.survey with
          state := .idle
          acc := Accumulators.zero
          delayTimer := none
          intervalTimer := none } }

/-- SURVEY_INTERVAL_EXPIRY (R151, R154): a due interval timer that is no holdoff takes a sample of
the source ring's occ, accumulated with the end of the cycle that it may bring (R155, R156, R157).
SYNC (R153, R154): the edge that an ARMED unit looks at, the level at the end of the delay, and the
end of a holdoff. That an expiry before its time changes nothing is the model's choice (log 2, log 3).
That the edge sets the level is too (log 15), and so is what the accumulators hold once a cycle has
ended (log 24); that the interval timer is armed again from the Timebase value at which an expiry is taken
is its reading (log 22). -/
def Obligations.ExpiriesAndEdgesTakeSamples : Prop :=
  (∀ (s : State) (timer : Timer), s.resetN = true → s.survey.state = .sampling →
    s.survey.intervalTimer = some timer →
    (s.survey.setup.trigger = .timer ∨ s.survey.setup.holdoff = false) →
    (timer.due s.timebase = false → exec .surveyIntervalExpiry s = .next s) ∧
    (timer.due s.timebase = true → ∃ t, exec .surveyIntervalExpiry s = .next t ∧
      SampledTo s.survey s.globalFlags s.timebase (s.ring s.survey.setup.source).occ t.survey
        t.globalFlags ∧
      t = { s with survey := t.survey, globalFlags := t.globalFlags, driver := t.driver })) ∧
  (∀ (s : State) (rising : Bool), s.resetN = true →
    (¬(s.survey.state = .armed ∧ s.survey.delayTimer = none ∧ s.survey.setup.selects rising) →
      exec (.syncEdge rising) s = .next { s with syncLevel := rising }) ∧
    (s.survey.state = .armed → s.survey.delayTimer = none → s.survey.setup.selects rising →
      (s.survey.setup.syncDelay ≠ 0 → exec (.syncEdge rising) s = .next { s with
        syncLevel := rising
        survey := { s.survey with
          delayTimer := some ⟨s.timebase, s.survey.setup.syncDelay.toNat⟩ } }) ∧
      (s.survey.setup.syncDelay = 0 → ∃ t, exec (.syncEdge rising) s = .next t ∧
        SampledTo s.survey s.globalFlags s.timebase (s.ring s.survey.setup.source).occ t.survey
          t.globalFlags ∧
        t = { s with
          syncLevel := rising
          survey := t.survey
          globalFlags := t.globalFlags
          driver := t.driver }))) ∧
  (∀ (s : State) (timer : Timer), s.resetN = true → s.survey.state = .armed →
    s.survey.delayTimer = some timer →
    (timer.due s.timebase = false → exec .syncDelayExpiry s = .next s) ∧
    (timer.due s.timebase = true → ¬s.survey.setup.selects s.syncLevel →
      exec .syncDelayExpiry s = .next { s with survey := { s.survey with delayTimer := none } }) ∧
    (timer.due s.timebase = true → s.survey.setup.selects s.syncLevel →
      ∃ t, exec .syncDelayExpiry s = .next t ∧
        SampledTo { s.survey with delayTimer := none } s.globalFlags s.timebase
          (s.ring s.survey.setup.source).occ t.survey t.globalFlags ∧
        t = { s with survey := t.survey, globalFlags := t.globalFlags, driver := t.driver })) ∧
  ∀ (s : State) (timer : Timer), s.resetN = true → s.survey.state = .sampling →
    s.survey.intervalTimer = some timer →
    (s.survey.setup.trigger = .syncRise ∨ s.survey.setup.trigger = .syncFall) →
    s.survey.setup.holdoff = true →
    (timer.due s.timebase = false → exec .holdoffExpiry s = .next s) ∧
    (timer.due s.timebase = true → exec .holdoffExpiry s = .next { s with
      survey := { s.survey with state := .armed, intervalTimer := none } })

/-! ## The Event Unit -/

/-- One acknowledged byte at a flag field is one clear event, and one at an enable field sets the enables
in its place (R163, R164); the driver follows (R165, R167). -/
def Obligations.FlagAndEnableBytesDriveTheLine : Prop :=
  (∀ (s : State) (r : RingId) (j : Nat) (b : Byte), s.atByte ⟨.ring r .flags, 0x39, 3, .w1c⟩ j →
    j < 3 → ∃ t, exec (.flagClear b) s = .next t ∧
      (∀ i : Fin 18, (t.ring r).events.flags[i] =
        ((s.ring r).events.flags[i] && !(decide (i.val / 8 = 2 - j) && b.getLsbD (i.val % 8)))) ∧
      t.ring r = { s.ring r with
        events := { (s.ring r).events with flags := (t.ring r).events.flags } } ∧
      (∀ p, p ≠ r → t.ring p = s.ring p) ∧
      t.driver = (if t.anyPending = false then .released
        else if s.driver = .released then .released else .pulse ⟨s.timebase, 2⟩) ∧
      t = { s with
        rings := t.rings
        driver := t.driver
        port := s.port.answered .ack none }) ∧
  (∀ (s : State) (b : Byte), s.atByte ⟨.global .flags, 0x0E, 1, .w1c⟩ 0 →
    ∃ t, exec (.flagClear b) s = .next t ∧
      t.driver = (if t.anyPending = false then .released
        else if s.driver = .released then .released else .pulse ⟨s.timebase, 2⟩) ∧
      t = { s with
        globalFlags := s.globalFlags &&& ~~~(b.setWidth 5)
        driver := t.driver
        port := s.port.answered .ack none }) ∧
  (∀ (s : State) (r : RingId) (j : Nat) (b : Byte) (fresh : BitVec 18),
    s.atByte ⟨.ring r .enables, 0x3C, 3, .en⟩ j → j < 3 →
    ∃ t, exec (.enableWrite b) s = .next t ∧
      (∀ i : Fin 18, (t.ring r).events.enables[i] =
        if i.val / 8 = 2 - j then b.getLsbD (i.val % 8) else (s.ring r).events.enables[i]) ∧
      t.ring r = { s.ring r with
        events := { (s.ring r).events with enables := (t.ring r).events.enables } } ∧
      (∀ p, p ≠ r → t.ring p = s.ring p) ∧
      (fresh = (s.ring r).events.flags &&& (t.ring r).events.enables &&&
          ~~~(s.ring r).events.enables →
        t.driver = if t.anyPending = false then .released
          else if fresh &&& 0x1C1B6#18 ≠ 0 then .asserted
          else if fresh ≠ 0 ∧ s.driver = .released ∧ s.period = 0 then .asserted
          else s.driver) ∧
      t = { s with
        rings := t.rings
        driver := t.driver
        port := s.port.answered .ack none }) ∧
  ∀ (s : State) (b : Byte) (fresh : BitVec 5), s.atByte ⟨.global .enables, 0x0F, 1, .en⟩ 0 →
    fresh = s.globalFlags &&& b.setWidth 5 &&& ~~~s.globalEnables →
    ∃ t, exec (.enableWrite b) s = .next t ∧
      (t.driver = if t.anyPending = false then .released
        else if fresh &&& 11#5 ≠ 0 then .asserted
        else if fresh ≠ 0 ∧ s.driver = .released ∧ s.period = 0 then .asserted
        else s.driver) ∧
      t = { s with
        globalEnables := b.setWidth 5
        driver := t.driver
        port := s.port.answered .ack none }

/-- A report that makes an URGENT flag enabled-pending asserts the line at once, from any state of
the driver; a NOTICE flag does so only from RELEASED with a coalescing period of 0 (R162, R165),
shown on the reports of a guarded write and of an entry to IDLE. The coalescing period and its tick
(R166; the next tick counts from this one, log 22), and the end of the release pulse (R167). That an
expiry before its time changes nothing is the model's choice (log 2, log 3). -/
def Obligations.ReportsTicksAndPulsesDriveTheLine : Prop :=
  (∀ (s : State) (q : UpRequest) (r : RingId), s.takesIn q → s.classify q = .guardedWrite r →
    ∃ t, exec (.upstreamRequest q) s = .next t ∧
      t.driver = if (s.ring r).events.flags &&& 0x10000#18 = 0 ∧
          (s.ring r).events.enables &&& 0x10000#18 ≠ 0 then .asserted else s.driver) ∧
  (∀ (s : State) (r : RingId), s.resetN = true → (s.ring r).state = .aborting → s.noDownstream r →
    s.survey.setup.source ≠ r →
    ∃ t, exec (.entryToIdle r) s = .next t ∧
      t.driver = if (s.ring r).events.flags &&& 0x20000#18 = 0 ∧
          (s.ring r).events.enables &&& 0x20000#18 ≠ 0 ∧ s.driver = .released ∧ s.period = 0 then
        .asserted else s.driver) ∧
  (∀ (s : State) (b : Byte), s.atByte ⟨.global .period, 0x0B, 1, .rw⟩ 0 →
    exec (.coalescingPeriodWrite b) s = .next { s with
      period := b
      coalTimer := if b = 0 then none else some ⟨s.timebase, b.toNat * 1000⟩
      driver := if b = 0 ∧ s.driver = .released ∧ s.noticeWaits = true then .asserted
        else s.driver
      port := s.port.answered .ack none }) ∧
  (∀ (s : State) (timer : Timer), s.resetN = true → s.coalTimer = some timer → s.period ≠ 0 →
    (timer.due s.timebase = false → exec .coalescingTick s = .next s) ∧
    (timer.due s.timebase = true → exec .coalescingTick s = .next { s with
      coalTimer := some ⟨s.timebase, s.period.toNat * 1000⟩
      driver := if s.driver = .released ∧ s.noticeWaits = true then .asserted else s.driver })) ∧
  ∀ (s : State) (ends : Timer), s.resetN = true → s.driver = .pulse ends →
    (ends.due s.timebase = false → exec .pulseEnd s = .next s) ∧
    (ends.due s.timebase = true →
      exec .pulseEnd s = .next { s with
        driver := if s.anyPending then .asserted else .released })

/-! ## The management port -/

/-- Transactions: the address byte, the subaddress byte and the stop condition (R171), and the page
register (R173). The map (tables 11.3, 11.4, 11.10): every subaddress of a page up to its highest lies in
exactly one field of that page, and none above it; there a write is refused, a read returns 0xFF, and the
subaddress stays (R172). That FIELD_READ_LATCH is the row of a read where no field lies, and that its
operand ack keeps or ends the transaction, are the model's reading (log 22); the row REGISTER_WRITE where no
field lies is too (log 16). -/
def Obligations.TransactionsSelectMappedFields : Prop :=
  (∀ (s : State) (addr : BitVec 7) (read : Bool), s.resetN = true →
    exec (.addressByte addr read) s = .next { s with
      port :=
        if addr = s.port.deviceAddress then
          { s.port with
            transaction := if read then .read else .awaitSub
            staging := none
            reply := .ack }
        else { s.port with transaction := .none, staging := none, reply := .none } }) ∧
  (∀ s : State, exec .stopCondition s = .next { s with
    port := { s.port with transaction := .none, staging := none, reply := .none } }) ∧
  (∀ (s : State) (b : Byte), s.resetN = true → s.port.transaction = .awaitSub →
    exec (.subaddressByte b) s = .next { s with
      port := { s.port with
        sub := b
        staging := none
        transaction := .write
        reply := .ack } }) ∧
  (∀ (s : State) (b : Byte), s.atByte pageRegister 0 →
    (∀ h : b.toNat < 18, exec (.pageRegisterWrite b) s = .next { s with
      port := { s.port with page := ⟨b.toNat, h⟩, sub := 1, staging := none, reply := .ack } }) ∧
    (18 ≤ b.toNat → exec (.pageRegisterWrite b) s = .next { s with
      port := { s.port with sub := 1, staging := none, reply := .nack } })) ∧
  (∀ (p : Fin 18) (sub : Nat), sub < 256 →
    (sub ≤ pageTop p → ∃ f, fieldAt p sub = some f ∧ f ∈ pageFields p ∧ f.covers sub = true ∧
      ∀ g ∈ pageFields p, g.covers sub = true → g = f) ∧
    (pageTop p < sub → fieldAt p sub = none)) ∧
  ∀ (s : State), s.resetN = true → s.portField = none →
    pageTop s.port.page < s.port.sub.toNat →
    (∀ b, s.port.transaction = .write → exec (.registerWrite b) s = .next { s with
      port := { s.port with staging := none, reply := .nack } }) ∧
    ∀ ack, s.port.transaction = .read → exec (.fieldReadLatch ack) s = .next { s with
      port := { s.port with
        reply := .sent 0xFF
        transaction := if ack then .read else .none } }

/-- A data byte by the class of its field (R174): RO refused, a locked IDLE field refused at every byte
(R25, R148), the staging of a longer field begun and continued, and a byte above the lowest without a
staging refused. The rows that are a data byte all judge it at the field where the port stands, and
outside a write transaction none has an effect (log 16: the model's reading of those rows). A byte at a
command field is the command of its code, carried and acknowledged, with the effect of the command's own
row (log 16); any other code is refused and issues nothing (R27, R177, R178). -/
def Obligations.DataBytesAreJudgedByClass : Prop :=
  (∀ (s : State) (f : RegField) (j : Nat) (b : Byte), s.atByte f j →
    (f.access = .ro → exec (.registerWrite b) s = .next { s with
      port := s.port.answered .nack none }) ∧
    (f.access = .idle → s.ownerIdle f.reg = false → f.reg ≠ .survey .repeats →
      exec (.registerWrite b) s = .next { s with port := s.port.answered .nack none }) ∧
    (f.access = .rw ∨ f.access = .idle → f.bytes ≠ 1 → f.reg ≠ .page →
      (j = 0 → (f.access = .rw ∨ s.ownerIdle f.reg = true) →
        exec (.registerWrite b) s = .next { s with
          port := s.port.answered .ack (some ⟨s.port.page, f.low, [b]⟩) }) ∧
      (j ≠ 0 → (∀ bs, s.port.staging = some ⟨s.port.page, f.low, bs⟩ → bs.length ≠ j) →
        exec (.registerWrite b) s = .next { s with port := s.port.answered .nack none }) ∧
      ∀ bs, j ≠ 0 → j + 1 < f.bytes → (f.access = .rw ∨ s.ownerIdle f.reg = true) →
        s.port.staging = some ⟨s.port.page, f.low, bs⟩ → bs.length = j →
        exec (.registerWrite b) s = .next { s with
          port := s.port.answered .ack (some ⟨s.port.page, f.low, bs ++ [b]⟩) })) ∧
  (∀ (s : State) (c : Instr) (b : Byte), dataByteOf c = some b →
    exec c s = exec (.registerWrite b) s ∧ (s.port.transaction ≠ .write → exec c s = .next s)) ∧
  (∀ (s : State) (r : RingId), s.atByte ⟨.ring r .command, 0x01, 1, .cmd⟩ 0 →
    (∀ c : RingCommand, exec (.registerWrite c.code) s = exec (c.row r) s) ∧
    ∀ b : Byte, (b = 0 ∨ 5 < b.toNat) →
      exec (.registerWrite b) s = .next { s with port := s.port.answered .nack none }) ∧
  ∀ s : State, s.atByte ⟨.global .command, 0x09, 1, .cmd⟩ 0 →
    exec (.registerWrite 1) s = exec .softReset s ∧
    exec (.registerWrite 2) s = exec .surveyArm s ∧
    exec (.registerWrite 3) s = exec .surveyDisarm s ∧
    ∀ b : Byte, (b = 0 ∨ 3 < b.toNat) →
      exec (.registerWrite b) s = .next { s with port := s.port.answered .nack none }

/-- The byte that completes a field of class RW or IDLE, behind the bytes staged for it (R174): of a ring
(R24, R25, table 2.2) and of the survey (R147, table 9.2) the field keeps what the tables let it keep of
the value and every other field stays, or the byte is refused; samples per cycle zeroes the results;
repeat is set to off in every state, and to on while IDLE only (R148); the scratch word, and the
downstream timeout by its range (R17). The rows of the downstream timeout and of samples per cycle do as
REGISTER_WRITE does (log 16). -/
def Obligations.LastBytesWriteTheValue : Prop :=
  ∀ (s : State) (f : RegField) (b : Byte) (v : Nat) (refused : State), s.completes f b v →
    refused = { s with port := s.port.answered .nack none } →
    (∀ r x, f.reg = .ring r x → f.access = .idle →
      ((s.ring r).state = .idle → ∀ n, x.stored v = some n →
        ∃ c, exec (.registerWrite b) s = .next { s with
            rings := s.rings.set r { s.ring r with config := c }
            port := s.port.answered .ack none } ∧
          c.read x = some n ∧ ∀ y, y ≠ x → c.read y = (s.ring r).config.read y) ∧
      ((s.ring r).state ≠ .idle ∨ x.stored v = none →
        exec (.registerWrite b) s = .next refused)) ∧
    (∀ x, f.reg = .survey x → f.access = .idle →
      (s.survey.state = .idle ∨ (x = .repeats ∧ v % 2 = 0) → ∀ n, x.stored v = some n →
        ∃ u, exec (.registerWrite b) s = .next { s with
            survey := u
            port := s.port.answered .ack none } ∧
          u.read x = n ∧ u = { s.survey with
            setup := u.setup
            results := if x = .samples then SurveyResults.zero else s.survey.results } ∧
          ∀ y, y ≠ x → (∃ m k, SurveyReg.stored y m = some k) → u.read y = s.survey.read y) ∧
      (s.survey.state ≠ .idle ∧ ¬(x = .repeats ∧ v % 2 = 0) ∨ x.stored v = none →
        exec (.registerWrite b) s = .next refused) ∧
      (x = .samples → exec (.samplesPerCycleWrite b) s = exec (.registerWrite b) s)) ∧
    (f.reg = .global .scratch → exec (.registerWrite b) s = .next { s with
      port := { s.port.answered .ack none with scratch := BitVec.ofNat 32 v } }) ∧
    (f.reg = .global .downTimeout →
      (16 ≤ v → exec (.downstreamTimeoutWrite b) s = .next { s with
        downTimeout := BitVec.ofNat 16 v
        port := s.port.answered .ack none }) ∧
      (v < 16 → exec (.downstreamTimeoutWrite b) s = .next refused))

/-- One byte of a read transaction (R171, R172, R175): the first byte of a longer field latches the
whole field, each byte is that of the latched value, most significant first, and a single-byte field
is read as it stands. The operand `ack` is the model's (log 22). -/
def Obligations.ReadsLatchWholeFields : Prop :=
  ∀ (s : State) (f : RegField) (j : Nat) (ack : Bool), s.readsByte f j → StoresCanonical s →
    ∃ t v, exec (.fieldReadLatch ack) s = .next t ∧
      t.port.reply = .sent (BitVec.ofNat 8 (v / 2 ^ (8 * (f.bytes - 1 - j)))) ∧
      (f.bytes = 1 → v = s.readReg f.reg ∧ t.port.latches = s.port.latches) ∧
      (f.bytes ≠ 1 → j = 0 → s.readReg f.reg < 2 ^ 64 → v = s.readReg f.reg ∧
        ∀ n, sparseGet 0 t.port.latches n =
          if n = s.port.page.val * 256 + f.low then BitVec.ofNat 64 v
          else sparseGet 0 s.port.latches n) ∧
      (f.bytes ≠ 1 → j ≠ 0 →
        v = (sparseGet 0 s.port.latches (s.port.page.val * 256 + f.low)).toNat ∧
        t.port.latches = s.port.latches) ∧
      t = { s with
        port := { s.port with
          latches := t.port.latches
          reply := t.port.reply
          sub := if s.port.sub.toNat ≤ pageTop s.port.page then s.port.sub + 1 else s.port.sub
          transaction := if ack then .read else .none } }

/-- What the fields read as (R46, R139, R160, R169, R176 to R178; tables 10.4, 11.3 to 11.10): the codes by
their place in the tables, each configuration and setup field as the value of the ring or of the survey that
it names, and the bits of the state readout, of a refusal record and of a stamp view, with the bits between
them 0. -/
def Obligations.FieldsReadAsTheTables : Prop :=
  (∀ s : State, s.readReg .page = s.port.page.val ∧ s.readReg (.global .partCode) = 0x0482 ∧
    s.readReg (.global .revision) = 1 ∧
    [none, some ResetCause.powerOn, some .line, some .soft][s.readReg (.global .resetCause)]? =
      some (some s.port.resetCause) ∧
    s.readReg (.global .scratch) = s.port.scratch.toNat ∧
    s.readReg (.global .command) = s.port.command.toNat ∧
    [GlobalResult.none, .accepted, .wrongState, .badSetup, .sourceIdle][
      s.readReg (.global .result)]? = some s.port.result ∧
    s.readReg (.global .period) = s.period.toNat ∧
    s.readReg (.global .downTimeout) = s.downTimeout.toNat ∧
    s.readReg (.global .flags) = s.globalFlags.toNat ∧
    s.readReg (.global .enables) = s.globalEnables.toNat ∧
    s.readReg (.global .time) = s.timebase.toNat ∧
    (PoolSound s → s.readReg (.global .stampFree) + s.heldBlocks = 64) ∧
    s.readReg (.global .ringSummary) < 2 ^ 16 ∧
    ∀ r : RingId, (s.readReg (.global .ringSummary)).testBit r.val =
      decide ((s.ring r).events.flags &&& (s.ring r).events.enables ≠ 0)) ∧
  (∀ (s : State) (r : RingId),
    s.readReg (.ring r .command) = (s.ring r).command.toNat ∧
    [CmdResult.none, .accepted, .wrongState, .slotSize, .slotCount, .apertureAlign, .addressWrap,
      .selfOverlap, .crossOverlap, .kindTimers, .pacedMarks, .checkSetup, .alignSetup,
      .cadenceOrder, .noStampSpace][s.readReg (.ring r .result)]? = some (s.ring r).result ∧
    s.readReg (.ring r .flags) = (s.ring r).events.flags.toNat ∧
    s.readReg (.ring r .enables) = (s.ring r).events.enables.toNat ∧
    ∀ i : Fin 15, s.readReg (.ring r (.bank i)) = (s.ring r).events.bank[i].toNat) ∧
  (∀ (s : State) (r : RingId) (c : RingConfig), c = (s.ring r).config →
    [Kind.message, .paced][s.readReg (.ring r .kind)]? = some c.kind ∧
    (c.producer = .any → s.readReg (.ring r .producer) = 16) ∧
    (∀ q, c.producer = .only q → s.readReg (.ring r .producer) = q.val) ∧
    (c.consumer = .any → s.readReg (.ring r .consumer) = 16) ∧
    (∀ q, c.consumer = .only q → s.readReg (.ring r .consumer) = q.val) ∧
    [CheckMode.off, .verify, .generate][s.readReg (.ring r .checkMode)]? = some c.checkMode ∧
    s.readReg (.ring r .takeCheck) = bit c.takeCheck ∧
    [AlignMode.off, .strict, .auto][s.readReg (.ring r .alignMode)]? = some c.alignMode ∧
    s.readReg (.ring r .guard) = bit c.guard ∧
    s.readReg (.ring r .putBase) = c.putBase.toNat ∧
    s.readReg (.ring r .takeBase) = c.takeBase.toNat ∧
    s.readReg (.ring r .storageBase) = c.storageBase.toNat ∧
    s.readReg (.ring r .sizeCode) = c.sizeCode.toNat ∧
    s.readReg (.ring r .slotCount) = c.slotCount.toNat ∧
    s.readReg (.ring r .marker) = c.marker.toNat ∧
    s.readReg (.ring r .searchTimeout) = c.searchTimeout.toNat ∧
    s.readReg (.ring r .errorThreshold) = c.errorThreshold.toNat ∧
    s.readReg (.ring r .fillWord) = c.fillWord.toNat ∧
    s.readReg (.ring r .parkTimeout) = c.parkTimeout.toNat ∧
    s.readReg (.ring r .highMark) = c.highMark.toNat ∧
    s.readReg (.ring r .centre) = c.centre.toNat ∧
    s.readReg (.ring r .ageLimit) = c.ageLimit.toNat ∧
    s.readReg (.ring r .cadenceMin) = c.cadenceMin.toNat ∧
    s.readReg (.ring r .cadenceMax) = c.cadenceMax.toNat ∧
    s.readReg (.ring r .absenceLimit) = c.absenceLimit.toNat) ∧
  (∀ (s : State) (r : RingId) (v : Nat), v = s.readReg (.ring r .readout) → v < 2 ^ 55 ∧
    [LossCause.none, .marker, .rate][bitsOf v 53 2]? = some (s.ring r).align.lastLoss ∧
    [AlignState.off, .search, .confirm, .aligned, .bypassed][bitsOf v 50 3]? =
      some (s.ring r).align.state ∧
    [RingState.idle, .running, .draining, .aborting][bitsOf v 48 2]? = some (s.ring r).state ∧
    bitsOf v 45 3 = 0 ∧
    [CadenceKind.none, .early, .late][bitsOf v 43 2]? = some (s.ring r).cadence.lastKind ∧
    bitsOf v 42 1 = bit (s.ring r).cadence.absent ∧
    [PacedState.none, .priming, .flowing, .replaying][bitsOf v 40 2]? = some (s.ring r).paced ∧
    bitsOf v 34 6 = 0 ∧ ((s.ring r).t < 1024 → bitsOf v 24 10 = (s.ring r).t) ∧
    bitsOf v 19 5 = 0 ∧ ((s.ring r).occ < 2048 → bitsOf v 8 11 = (s.ring r).occ) ∧
    bitsOf v 5 3 = 0 ∧ ((s.ring r).blocks.length ≤ 16 → bitsOf v 0 5 = (s.ring r).blocks.length)) ∧
  (∀ (s : State) (r : RingId) (v : Nat) (f : RefusalRecord),
    (v = s.readReg (.ring r .putRefusal) ∧ f = (s.ring r).put.refusal) ∨
      (v = s.readReg (.ring r .takeRefusal) ∧ f = (s.ring r).take.refusal) →
    v < 2 ^ 64 ∧
    [none, some Cause.aborting, some .wrongRequester, some .mixed, some .wrongDirection,
      some .unusedOffset, some .partialLanes, some .overlength, some .orphanWord,
      some .outsideSlot, some .outOfOrder, some .restarted, some .abandoned, some .queueFull,
      some .ringFull, some .parkExpired, some .consumerAbsent, some .draining, some .downstream,
      some .checkMismatch][bitsOf v 56 8]? = some f.cause ∧
    bitsOf v 55 1 = bit f.valid ∧ bitsOf v 52 3 = 0 ∧ bitsOf v 48 4 = f.requester.val ∧
    (f.offset < 2 ^ 16 → bitsOf v 32 16 = f.offset) ∧ bitsOf v 0 32 = f.time.toNat) ∧
  (∀ (s : State) (r : RingId) (v : Nat) (present : Prop) (e : Stamp),
    (v = s.readReg (.ring r .headStamp) ∧ (present ↔ (s.ring r).occ ≠ 0) ∧
        e = s.stampAt r (s.ring r).t) ∨
      (v = s.readReg (.ring r .inTakeStamp) ∧ (present ↔ (s.ring r).take.record.present = true) ∧
        e = s.stampAt r (s.ring r).take.record.position) →
    (¬present → v = 0) ∧
    (present → v < 2 ^ 56 ∧ bitsOf v 55 1 = 1 ∧ bitsOf v 54 1 = bit e.gap ∧ bitsOf v 50 4 = 0 ∧
      [CheckState.none, .verified, .generated][bitsOf v 48 2]? = some e.check ∧
      bitsOf v 40 8 = e.sequence.toNat ∧ bitsOf v 32 8 = e.length.toNat ∧
      bitsOf v 0 32 = e.commitTime.toNat)) ∧
  ∀ s : State,
    [SurveyState.idle, .armed, .sampling][s.readReg (.survey .state)]? = some s.survey.state ∧
    s.readReg (.survey .resMinimum) = s.survey.results.minimum ∧
    s.readReg (.survey .resMaximum) = s.survey.results.maximum ∧
    s.readReg (.survey .resAverage) = s.survey.results.average ∧
    s.readReg (.survey .resLast) = s.survey.results.last ∧
    s.readReg (.survey .resCount) = s.survey.results.count ∧
    s.readReg (.survey .resLimitExit) = bit s.survey.results.limitExit ∧
    s.readReg (.survey .source) = s.survey.setup.source.val ∧
    [Quantity.occupancy, .dwell][s.readReg (.survey .quantity)]? = some s.survey.setup.quantity ∧
    [Trigger.timer, .syncRise, .syncFall, .commit, .take][s.readReg (.survey .trigger)]? =
      some s.survey.setup.trigger ∧
    s.readReg (.survey .samples) = s.survey.setup.samples.toNat ∧
    s.readReg (.survey .interval) = s.survey.setup.interval.toNat ∧
    s.readReg (.survey .syncDelay) = s.survey.setup.syncDelay.toNat ∧
    s.readReg (.survey .holdoff) = bit s.survey.setup.holdoff ∧
    s.readReg (.survey .lowLimit) = s.survey.setup.lowLimit.toNat ∧
    s.readReg (.survey .highLimit) = s.survey.setup.highLimit.toNat ∧
    s.readReg (.survey .repeats) = bit s.survey.setup.repeats

/-! ## What every step keeps -/

/-- The stamp entries and the read latches stay in their canonical form. -/
def Obligations.EveryStepKeepsStoresCanonical : Prop := KeptByEveryStep StoresCanonical

/-- No requester holds more than 8 entries of the outstanding-request table, and no pair is held twice
(R1, R2, R3). -/
def Obligations.EveryStepKeepsTheTableSound : Prop := KeptByEveryStep TableSound

/-- No stamp block is held by two rings, an IDLE ring holds none, and the blocks held and the free blocks
number 64 (R44). -/
def Obligations.EveryStepKeepsThePoolSound : Prop :=
  KeptByEveryStep PoolSound ∧ ∀ s, PoolSound s → s.heldBlocks + s.freeBlocks.length = 64

/-- The positions of every ring stay apart (R40, R43, R57, R125, R126, R133): every step keeps the
invariant, and in a state that has it no position of an active ring has two roles; an IDLE ring has none
published. -/
def Obligations.EveryStepKeepsPositionsApart : Prop :=
  KeptByEveryStep PositionsSound ∧
    ∀ s, PositionsSound s → ∀ r, (s.ring r).state ≠ .idle → (s.ring r).PositionsApart

/-- The interrupt line is released when nothing is enabled-pending and never while an URGENT flag is
(R165, R166). -/
def Obligations.EveryStepKeepsTheLineSound : Prop := KeptByEveryStep LineSound

/-- The ranges of the active rings share no byte (R29, R30). -/
def Obligations.EveryStepKeepsRegionsApart : Prop := KeptByEveryStep RegionsSound

/-- A ring that meets its drain or abort condition has entered IDLE (R33, R35). -/
def Obligations.EveryStepKeepsNoRingOverdue : Prop := KeptByEveryStep NoRingOverdue

/-- The machine after power-on meets every one of them. -/
def Obligations.ResetMeetsTheInvariants : Prop :=
  StoresCanonical State.reset ∧ TableSound State.reset ∧ PoolSound State.reset ∧
    PositionsSound State.reset ∧ LineSound State.reset ∧ RegionsSound State.reset ∧
    NoRingOverdue State.reset
end

