-- ==== Sys2Proof/Laws/State.lean ====
section
/-! SUPPORT. What each update of the state does to each field, once for all: the fields it leaves, and
the ring it reaches. -/

namespace Sys2Proof.Laws

open Sys2Proof.Machine

/-! ## The rings -/

@[simp] theorem ring_setRing_self (s : State) (r : RingId) (x : Ring) :
    (s.setRing r x).ring r = x := by
  simp [State.ring, State.setRing]

theorem ring_setRing (s : State) (r q : RingId) (x : Ring) :
    (s.setRing r x).ring q = if r = q then x else s.ring q := by
  simp only [State.ring, State.setRing, Fin.getElem_fin, Vector.getElem_set, Fin.ext_iff]

@[simp] theorem ring_setRing_other (s : State) {r q : RingId} (x : Ring) (h : r ≠ q) :
    (s.setRing r x).ring q = s.ring q := by
  rw [ring_setRing, if_neg h]

@[simp] theorem ring_modRing_self (s : State) (r : RingId) (f : Ring → Ring) :
    (s.modRing r f).ring r = f (s.ring r) := ring_setRing_self s r _

@[simp] theorem ring_modRing_other (s : State) {r q : RingId} (f : Ring → Ring) (h : r ≠ q) :
    (s.modRing r f).ring q = s.ring q := ring_setRing_other s _ h

@[simp] theorem ring_modPut_self (s : State) (r : RingId) (f : PutEngine → PutEngine) :
    (s.modPut r f).ring r = { s.ring r with put := f (s.ring r).put } := ring_setRing_self s r _

@[simp] theorem ring_modPut_other (s : State) {r q : RingId} (f : PutEngine → PutEngine) (h : r ≠ q) :
    (s.modPut r f).ring q = s.ring q := ring_setRing_other s _ h

@[simp] theorem ring_modTake_self (s : State) (r : RingId) (f : TakeEngine → TakeEngine) :
    (s.modTake r f).ring r = { s.ring r with take := f (s.ring r).take } := ring_setRing_self s r _

@[simp] theorem ring_modTake_other (s : State) {r q : RingId} (f : TakeEngine → TakeEngine) (h : r ≠ q) :
    (s.modTake r f).ring q = s.ring q := ring_setRing_other s _ h

@[simp] theorem ring_modAlign_self (s : State) (r : RingId) (f : AlignChecker → AlignChecker) :
    (s.modAlign r f).ring r = { s.ring r with align := f (s.ring r).align } := ring_setRing_self s r _

@[simp] theorem ring_modAlign_other (s : State) {r q : RingId} (f : AlignChecker → AlignChecker) (h : r ≠ q) :
    (s.modAlign r f).ring q = s.ring q := ring_setRing_other s _ h

@[simp] theorem ring_modCadence_self (s : State) (r : RingId) (f : CadenceMonitor → CadenceMonitor) :
    (s.modCadence r f).ring r = { s.ring r with cadence := f (s.ring r).cadence } := ring_setRing_self s r _

@[simp] theorem ring_modCadence_other (s : State) {r q : RingId} (f : CadenceMonitor → CadenceMonitor) (h : r ≠ q) :
    (s.modCadence r f).ring q = s.ring q := ring_setRing_other s _ h

@[simp] theorem ring_modEvents_self (s : State) (r : RingId) (f : RingEvents → RingEvents) :
    (s.modEvents r f).ring r = { s.ring r with events := f (s.ring r).events } := ring_setRing_self s r _

@[simp] theorem ring_modEvents_other (s : State) {r q : RingId} (f : RingEvents → RingEvents) (h : r ≠ q) :
    (s.modEvents r f).ring q = s.ring q := ring_setRing_other s _ h

/-! ## The fields that a ring's update leaves -/

section

variable (s : State) (r : RingId) (x : Ring)

@[simp] theorem resetN_setRing : (s.setRing r x).resetN = s.resetN := rfl
@[simp] theorem syncLevel_setRing : (s.setRing r x).syncLevel = s.syncLevel := rfl
@[simp] theorem timebase_setRing : (s.setRing r x).timebase = s.timebase := rfl
@[simp] theorem outstanding_setRing : (s.setRing r x).outstanding = s.outstanding := rfl
@[simp] theorem tags_setRing : (s.setRing r x).tags = s.tags := rfl
@[simp] theorem issueQueue_setRing : (s.setRing r x).issueQueue = s.issueQueue := rfl
@[simp] theorem downTimeout_setRing : (s.setRing r x).downTimeout = s.downTimeout := rfl
@[simp] theorem stamps_setRing : (s.setRing r x).stamps = s.stamps := rfl
@[simp] theorem globalFlags_setRing : (s.setRing r x).globalFlags = s.globalFlags := rfl
@[simp] theorem globalEnables_setRing : (s.setRing r x).globalEnables = s.globalEnables := rfl
@[simp] theorem period_setRing : (s.setRing r x).period = s.period := rfl
@[simp] theorem coalTimer_setRing : (s.setRing r x).coalTimer = s.coalTimer := rfl
@[simp] theorem driver_setRing : (s.setRing r x).driver = s.driver := rfl
@[simp] theorem survey_setRing : (s.setRing r x).survey = s.survey := rfl
@[simp] theorem port_setRing : (s.setRing r x).port = s.port := rfl
@[simp] theorem upResponses_setRing : (s.setRing r x).upResponses = s.upResponses := rfl
@[simp] theorem downRequests_setRing : (s.setRing r x).downRequests = s.downRequests := rfl
@[simp] theorem freeCount_setRing : (s.setRing r x).freeCount = s.freeCount := rfl
@[simp] theorem pending_setRing : (s.setRing r x).pending = s.pending := rfl

end

section

variable (s : State) (r : RingId) (f : Ring → Ring)

@[simp] theorem resetN_modRing : (s.modRing r f).resetN = s.resetN := rfl
@[simp] theorem syncLevel_modRing : (s.modRing r f).syncLevel = s.syncLevel := rfl
@[simp] theorem timebase_modRing : (s.modRing r f).timebase = s.timebase := rfl
@[simp] theorem outstanding_modRing : (s.modRing r f).outstanding = s.outstanding := rfl
@[simp] theorem tags_modRing : (s.modRing r f).tags = s.tags := rfl
@[simp] theorem issueQueue_modRing : (s.modRing r f).issueQueue = s.issueQueue := rfl
@[simp] theorem downTimeout_modRing : (s.modRing r f).downTimeout = s.downTimeout := rfl
@[simp] theorem stamps_modRing : (s.modRing r f).stamps = s.stamps := rfl
@[simp] theorem globalFlags_modRing : (s.modRing r f).globalFlags = s.globalFlags := rfl
@[simp] theorem globalEnables_modRing : (s.modRing r f).globalEnables = s.globalEnables := rfl
@[simp] theorem period_modRing : (s.modRing r f).period = s.period := rfl
@[simp] theorem coalTimer_modRing : (s.modRing r f).coalTimer = s.coalTimer := rfl
@[simp] theorem driver_modRing : (s.modRing r f).driver = s.driver := rfl
@[simp] theorem survey_modRing : (s.modRing r f).survey = s.survey := rfl
@[simp] theorem port_modRing : (s.modRing r f).port = s.port := rfl
@[simp] theorem upResponses_modRing : (s.modRing r f).upResponses = s.upResponses := rfl
@[simp] theorem downRequests_modRing : (s.modRing r f).downRequests = s.downRequests := rfl
@[simp] theorem freeCount_modRing : (s.modRing r f).freeCount = s.freeCount := rfl
@[simp] theorem pending_modRing : (s.modRing r f).pending = s.pending := rfl

end

section

variable (s : State) (r : RingId) (f : PutEngine → PutEngine)

@[simp] theorem resetN_modPut : (s.modPut r f).resetN = s.resetN := rfl
@[simp] theorem syncLevel_modPut : (s.modPut r f).syncLevel = s.syncLevel := rfl
@[simp] theorem timebase_modPut : (s.modPut r f).timebase = s.timebase := rfl
@[simp] theorem outstanding_modPut : (s.modPut r f).outstanding = s.outstanding := rfl
@[simp] theorem tags_modPut : (s.modPut r f).tags = s.tags := rfl
@[simp] theorem issueQueue_modPut : (s.modPut r f).issueQueue = s.issueQueue := rfl
@[simp] theorem downTimeout_modPut : (s.modPut r f).downTimeout = s.downTimeout := rfl
@[simp] theorem stamps_modPut : (s.modPut r f).stamps = s.stamps := rfl
@[simp] theorem globalFlags_modPut : (s.modPut r f).globalFlags = s.globalFlags := rfl
@[simp] theorem globalEnables_modPut : (s.modPut r f).globalEnables = s.globalEnables := rfl
@[simp] theorem period_modPut : (s.modPut r f).period = s.period := rfl
@[simp] theorem coalTimer_modPut : (s.modPut r f).coalTimer = s.coalTimer := rfl
@[simp] theorem driver_modPut : (s.modPut r f).driver = s.driver := rfl
@[simp] theorem survey_modPut : (s.modPut r f).survey = s.survey := rfl
@[simp] theorem port_modPut : (s.modPut r f).port = s.port := rfl
@[simp] theorem upResponses_modPut : (s.modPut r f).upResponses = s.upResponses := rfl
@[simp] theorem downRequests_modPut : (s.modPut r f).downRequests = s.downRequests := rfl
@[simp] theorem freeCount_modPut : (s.modPut r f).freeCount = s.freeCount := rfl
@[simp] theorem pending_modPut : (s.modPut r f).pending = s.pending := rfl

end

section

variable (s : State) (r : RingId) (f : TakeEngine → TakeEngine)

@[simp] theorem resetN_modTake : (s.modTake r f).resetN = s.resetN := rfl
@[simp] theorem syncLevel_modTake : (s.modTake r f).syncLevel = s.syncLevel := rfl
@[simp] theorem timebase_modTake : (s.modTake r f).timebase = s.timebase := rfl
@[simp] theorem outstanding_modTake : (s.modTake r f).outstanding = s.outstanding := rfl
@[simp] theorem tags_modTake : (s.modTake r f).tags = s.tags := rfl
@[simp] theorem issueQueue_modTake : (s.modTake r f).issueQueue = s.issueQueue := rfl
@[simp] theorem downTimeout_modTake : (s.modTake r f).downTimeout = s.downTimeout := rfl
@[simp] theorem stamps_modTake : (s.modTake r f).stamps = s.stamps := rfl
@[simp] theorem globalFlags_modTake : (s.modTake r f).globalFlags = s.globalFlags := rfl
@[simp] theorem globalEnables_modTake : (s.modTake r f).globalEnables = s.globalEnables := rfl
@[simp] theorem period_modTake : (s.modTake r f).period = s.period := rfl
@[simp] theorem coalTimer_modTake : (s.modTake r f).coalTimer = s.coalTimer := rfl
@[simp] theorem driver_modTake : (s.modTake r f).driver = s.driver := rfl
@[simp] theorem survey_modTake : (s.modTake r f).survey = s.survey := rfl
@[simp] theorem port_modTake : (s.modTake r f).port = s.port := rfl
@[simp] theorem upResponses_modTake : (s.modTake r f).upResponses = s.upResponses := rfl
@[simp] theorem downRequests_modTake : (s.modTake r f).downRequests = s.downRequests := rfl
@[simp] theorem freeCount_modTake : (s.modTake r f).freeCount = s.freeCount := rfl
@[simp] theorem pending_modTake : (s.modTake r f).pending = s.pending := rfl

end

section

variable (s : State) (r : RingId) (f : AlignChecker → AlignChecker)

@[simp] theorem resetN_modAlign : (s.modAlign r f).resetN = s.resetN := rfl
@[simp] theorem syncLevel_modAlign : (s.modAlign r f).syncLevel = s.syncLevel := rfl
@[simp] theorem timebase_modAlign : (s.modAlign r f).timebase = s.timebase := rfl
@[simp] theorem outstanding_modAlign : (s.modAlign r f).outstanding = s.outstanding := rfl
@[simp] theorem tags_modAlign : (s.modAlign r f).tags = s.tags := rfl
@[simp] theorem issueQueue_modAlign : (s.modAlign r f).issueQueue = s.issueQueue := rfl
@[simp] theorem downTimeout_modAlign : (s.modAlign r f).downTimeout = s.downTimeout := rfl
@[simp] theorem stamps_modAlign : (s.modAlign r f).stamps = s.stamps := rfl
@[simp] theorem globalFlags_modAlign : (s.modAlign r f).globalFlags = s.globalFlags := rfl
@[simp] theorem globalEnables_modAlign : (s.modAlign r f).globalEnables = s.globalEnables := rfl
@[simp] theorem period_modAlign : (s.modAlign r f).period = s.period := rfl
@[simp] theorem coalTimer_modAlign : (s.modAlign r f).coalTimer = s.coalTimer := rfl
@[simp] theorem driver_modAlign : (s.modAlign r f).driver = s.driver := rfl
@[simp] theorem survey_modAlign : (s.modAlign r f).survey = s.survey := rfl
@[simp] theorem port_modAlign : (s.modAlign r f).port = s.port := rfl
@[simp] theorem upResponses_modAlign : (s.modAlign r f).upResponses = s.upResponses := rfl
@[simp] theorem downRequests_modAlign : (s.modAlign r f).downRequests = s.downRequests := rfl
@[simp] theorem freeCount_modAlign : (s.modAlign r f).freeCount = s.freeCount := rfl
@[simp] theorem pending_modAlign : (s.modAlign r f).pending = s.pending := rfl

end

section

variable (s : State) (r : RingId) (f : CadenceMonitor → CadenceMonitor)

@[simp] theorem resetN_modCadence : (s.modCadence r f).resetN = s.resetN := rfl
@[simp] theorem syncLevel_modCadence : (s.modCadence r f).syncLevel = s.syncLevel := rfl
@[simp] theorem timebase_modCadence : (s.modCadence r f).timebase = s.timebase := rfl
@[simp] theorem outstanding_modCadence : (s.modCadence r f).outstanding = s.outstanding := rfl
@[simp] theorem tags_modCadence : (s.modCadence r f).tags = s.tags := rfl
@[simp] theorem issueQueue_modCadence : (s.modCadence r f).issueQueue = s.issueQueue := rfl
@[simp] theorem downTimeout_modCadence : (s.modCadence r f).downTimeout = s.downTimeout := rfl
@[simp] theorem stamps_modCadence : (s.modCadence r f).stamps = s.stamps := rfl
@[simp] theorem globalFlags_modCadence : (s.modCadence r f).globalFlags = s.globalFlags := rfl
@[simp] theorem globalEnables_modCadence : (s.modCadence r f).globalEnables = s.globalEnables := rfl
@[simp] theorem period_modCadence : (s.modCadence r f).period = s.period := rfl
@[simp] theorem coalTimer_modCadence : (s.modCadence r f).coalTimer = s.coalTimer := rfl
@[simp] theorem driver_modCadence : (s.modCadence r f).driver = s.driver := rfl
@[simp] theorem survey_modCadence : (s.modCadence r f).survey = s.survey := rfl
@[simp] theorem port_modCadence : (s.modCadence r f).port = s.port := rfl
@[simp] theorem upResponses_modCadence : (s.modCadence r f).upResponses = s.upResponses := rfl
@[simp] theorem downRequests_modCadence : (s.modCadence r f).downRequests = s.downRequests := rfl
@[simp] theorem freeCount_modCadence : (s.modCadence r f).freeCount = s.freeCount := rfl
@[simp] theorem pending_modCadence : (s.modCadence r f).pending = s.pending := rfl

end

section

variable (s : State) (r : RingId) (f : RingEvents → RingEvents)

@[simp] theorem resetN_modEvents : (s.modEvents r f).resetN = s.resetN := rfl
@[simp] theorem syncLevel_modEvents : (s.modEvents r f).syncLevel = s.syncLevel := rfl
@[simp] theorem timebase_modEvents : (s.modEvents r f).timebase = s.timebase := rfl
@[simp] theorem outstanding_modEvents : (s.modEvents r f).outstanding = s.outstanding := rfl
@[simp] theorem tags_modEvents : (s.modEvents r f).tags = s.tags := rfl
@[simp] theorem issueQueue_modEvents : (s.modEvents r f).issueQueue = s.issueQueue := rfl
@[simp] theorem downTimeout_modEvents : (s.modEvents r f).downTimeout = s.downTimeout := rfl
@[simp] theorem stamps_modEvents : (s.modEvents r f).stamps = s.stamps := rfl
@[simp] theorem globalFlags_modEvents : (s.modEvents r f).globalFlags = s.globalFlags := rfl
@[simp] theorem globalEnables_modEvents : (s.modEvents r f).globalEnables = s.globalEnables := rfl
@[simp] theorem period_modEvents : (s.modEvents r f).period = s.period := rfl
@[simp] theorem coalTimer_modEvents : (s.modEvents r f).coalTimer = s.coalTimer := rfl
@[simp] theorem driver_modEvents : (s.modEvents r f).driver = s.driver := rfl
@[simp] theorem survey_modEvents : (s.modEvents r f).survey = s.survey := rfl
@[simp] theorem port_modEvents : (s.modEvents r f).port = s.port := rfl
@[simp] theorem upResponses_modEvents : (s.modEvents r f).upResponses = s.upResponses := rfl
@[simp] theorem downRequests_modEvents : (s.modEvents r f).downRequests = s.downRequests := rfl
@[simp] theorem freeCount_modEvents : (s.modEvents r f).freeCount = s.freeCount := rfl
@[simp] theorem pending_modEvents : (s.modEvents r f).pending = s.pending := rfl

end

/-! ## The other updates -/

section

variable (s : State) (f : Survey → Survey)

@[simp] theorem resetN_modSurvey : (s.modSurvey f).resetN = s.resetN := rfl
@[simp] theorem syncLevel_modSurvey : (s.modSurvey f).syncLevel = s.syncLevel := rfl
@[simp] theorem timebase_modSurvey : (s.modSurvey f).timebase = s.timebase := rfl
@[simp] theorem outstanding_modSurvey : (s.modSurvey f).outstanding = s.outstanding := rfl
@[simp] theorem tags_modSurvey : (s.modSurvey f).tags = s.tags := rfl
@[simp] theorem issueQueue_modSurvey : (s.modSurvey f).issueQueue = s.issueQueue := rfl
@[simp] theorem downTimeout_modSurvey : (s.modSurvey f).downTimeout = s.downTimeout := rfl
@[simp] theorem ring_modSurvey (q : RingId) : (s.modSurvey f).ring q = s.ring q := rfl
@[simp] theorem stamps_modSurvey : (s.modSurvey f).stamps = s.stamps := rfl
@[simp] theorem globalFlags_modSurvey : (s.modSurvey f).globalFlags = s.globalFlags := rfl
@[simp] theorem globalEnables_modSurvey : (s.modSurvey f).globalEnables = s.globalEnables := rfl
@[simp] theorem period_modSurvey : (s.modSurvey f).period = s.period := rfl
@[simp] theorem coalTimer_modSurvey : (s.modSurvey f).coalTimer = s.coalTimer := rfl
@[simp] theorem driver_modSurvey : (s.modSurvey f).driver = s.driver := rfl
@[simp] theorem survey_modSurvey : (s.modSurvey f).survey = f s.survey := rfl
@[simp] theorem port_modSurvey : (s.modSurvey f).port = s.port := rfl
@[simp] theorem upResponses_modSurvey : (s.modSurvey f).upResponses = s.upResponses := rfl
@[simp] theorem downRequests_modSurvey : (s.modSurvey f).downRequests = s.downRequests := rfl
@[simp] theorem freeCount_modSurvey : (s.modSurvey f).freeCount = s.freeCount := rfl
@[simp] theorem pending_modSurvey : (s.modSurvey f).pending = s.pending := rfl

end

section

variable (s : State) (f : Port → Port)

@[simp] theorem resetN_modPort : (s.modPort f).resetN = s.resetN := rfl
@[simp] theorem syncLevel_modPort : (s.modPort f).syncLevel = s.syncLevel := rfl
@[simp] theorem timebase_modPort : (s.modPort f).timebase = s.timebase := rfl
@[simp] theorem outstanding_modPort : (s.modPort f).outstanding = s.outstanding := rfl
@[simp] theorem tags_modPort : (s.modPort f).tags = s.tags := rfl
@[simp] theorem issueQueue_modPort : (s.modPort f).issueQueue = s.issueQueue := rfl
@[simp] theorem downTimeout_modPort : (s.modPort f).downTimeout = s.downTimeout := rfl
@[simp] theorem ring_modPort (q : RingId) : (s.modPort f).ring q = s.ring q := rfl
@[simp] theorem stamps_modPort : (s.modPort f).stamps = s.stamps := rfl
@[simp] theorem globalFlags_modPort : (s.modPort f).globalFlags = s.globalFlags := rfl
@[simp] theorem globalEnables_modPort : (s.modPort f).globalEnables = s.globalEnables := rfl
@[simp] theorem period_modPort : (s.modPort f).period = s.period := rfl
@[simp] theorem coalTimer_modPort : (s.modPort f).coalTimer = s.coalTimer := rfl
@[simp] theorem driver_modPort : (s.modPort f).driver = s.driver := rfl
@[simp] theorem survey_modPort : (s.modPort f).survey = s.survey := rfl
@[simp] theorem port_modPort : (s.modPort f).port = f s.port := rfl
@[simp] theorem upResponses_modPort : (s.modPort f).upResponses = s.upResponses := rfl
@[simp] theorem downRequests_modPort : (s.modPort f).downRequests = s.downRequests := rfl
@[simp] theorem freeCount_modPort : (s.modPort f).freeCount = s.freeCount := rfl
@[simp] theorem pending_modPort : (s.modPort f).pending = s.pending := rfl

end

section

variable (s : State) (i : DTag) (e : TagEntry)

@[simp] theorem resetN_setTag : (s.setTag i e).resetN = s.resetN := rfl
@[simp] theorem syncLevel_setTag : (s.setTag i e).syncLevel = s.syncLevel := rfl
@[simp] theorem timebase_setTag : (s.setTag i e).timebase = s.timebase := rfl
@[simp] theorem outstanding_setTag : (s.setTag i e).outstanding = s.outstanding := rfl
@[simp] theorem tags_setTag : (s.setTag i e).tags = s.tags.set i e := rfl
@[simp] theorem issueQueue_setTag : (s.setTag i e).issueQueue = s.issueQueue := rfl
@[simp] theorem downTimeout_setTag : (s.setTag i e).downTimeout = s.downTimeout := rfl
@[simp] theorem ring_setTag (q : RingId) : (s.setTag i e).ring q = s.ring q := rfl
@[simp] theorem stamps_setTag : (s.setTag i e).stamps = s.stamps := rfl
@[simp] theorem globalFlags_setTag : (s.setTag i e).globalFlags = s.globalFlags := rfl
@[simp] theorem globalEnables_setTag : (s.setTag i e).globalEnables = s.globalEnables := rfl
@[simp] theorem period_setTag : (s.setTag i e).period = s.period := rfl
@[simp] theorem coalTimer_setTag : (s.setTag i e).coalTimer = s.coalTimer := rfl
@[simp] theorem driver_setTag : (s.setTag i e).driver = s.driver := rfl
@[simp] theorem survey_setTag : (s.setTag i e).survey = s.survey := rfl
@[simp] theorem port_setTag : (s.setTag i e).port = s.port := rfl
@[simp] theorem upResponses_setTag : (s.setTag i e).upResponses = s.upResponses := rfl
@[simp] theorem downRequests_setTag : (s.setTag i e).downRequests = s.downRequests := rfl
@[simp] theorem freeCount_setTag : (s.setTag i e).freeCount = s.freeCount := rfl
@[simp] theorem pending_setTag : (s.setTag i e).pending = s.pending := rfl

end

section

variable (s : State) (i : Issue)

@[simp] theorem resetN_handDown : (s.handDown i).resetN = s.resetN := rfl
@[simp] theorem syncLevel_handDown : (s.handDown i).syncLevel = s.syncLevel := rfl
@[simp] theorem timebase_handDown : (s.handDown i).timebase = s.timebase := rfl
@[simp] theorem outstanding_handDown : (s.handDown i).outstanding = s.outstanding := rfl
@[simp] theorem tags_handDown : (s.handDown i).tags = s.tags := rfl
@[simp] theorem issueQueue_handDown : (s.handDown i).issueQueue = s.issueQueue ++ [i] := rfl
@[simp] theorem downTimeout_handDown : (s.handDown i).downTimeout = s.downTimeout := rfl
@[simp] theorem ring_handDown (q : RingId) : (s.handDown i).ring q = s.ring q := rfl
@[simp] theorem stamps_handDown : (s.handDown i).stamps = s.stamps := rfl
@[simp] theorem globalFlags_handDown : (s.handDown i).globalFlags = s.globalFlags := rfl
@[simp] theorem globalEnables_handDown : (s.handDown i).globalEnables = s.globalEnables := rfl
@[simp] theorem period_handDown : (s.handDown i).period = s.period := rfl
@[simp] theorem coalTimer_handDown : (s.handDown i).coalTimer = s.coalTimer := rfl
@[simp] theorem driver_handDown : (s.handDown i).driver = s.driver := rfl
@[simp] theorem survey_handDown : (s.handDown i).survey = s.survey := rfl
@[simp] theorem port_handDown : (s.handDown i).port = s.port := rfl
@[simp] theorem upResponses_handDown : (s.handDown i).upResponses = s.upResponses := rfl
@[simp] theorem downRequests_handDown : (s.handDown i).downRequests = s.downRequests := rfl
@[simp] theorem freeCount_handDown : (s.handDown i).freeCount = s.freeCount := rfl
@[simp] theorem pending_handDown : (s.handDown i).pending = s.pending := rfl

end

section

variable (s : State) (p : UpResponse)

@[simp] theorem resetN_sendUp : (s.sendUp p).resetN = s.resetN := rfl
@[simp] theorem syncLevel_sendUp : (s.sendUp p).syncLevel = s.syncLevel := rfl
@[simp] theorem timebase_sendUp : (s.sendUp p).timebase = s.timebase := rfl
@[simp] theorem outstanding_sendUp : (s.sendUp p).outstanding = s.outstanding := rfl
@[simp] theorem tags_sendUp : (s.sendUp p).tags = s.tags := rfl
@[simp] theorem issueQueue_sendUp : (s.sendUp p).issueQueue = s.issueQueue := rfl
@[simp] theorem downTimeout_sendUp : (s.sendUp p).downTimeout = s.downTimeout := rfl
@[simp] theorem ring_sendUp (q : RingId) : (s.sendUp p).ring q = s.ring q := rfl
@[simp] theorem stamps_sendUp : (s.sendUp p).stamps = s.stamps := rfl
@[simp] theorem globalFlags_sendUp : (s.sendUp p).globalFlags = s.globalFlags := rfl
@[simp] theorem globalEnables_sendUp : (s.sendUp p).globalEnables = s.globalEnables := rfl
@[simp] theorem period_sendUp : (s.sendUp p).period = s.period := rfl
@[simp] theorem coalTimer_sendUp : (s.sendUp p).coalTimer = s.coalTimer := rfl
@[simp] theorem driver_sendUp : (s.sendUp p).driver = s.driver := rfl
@[simp] theorem survey_sendUp : (s.sendUp p).survey = s.survey := rfl
@[simp] theorem port_sendUp : (s.sendUp p).port = s.port := rfl
@[simp] theorem upResponses_sendUp : (s.sendUp p).upResponses = s.upResponses ++ [p] := rfl
@[simp] theorem downRequests_sendUp : (s.sendUp p).downRequests = s.downRequests := rfl
@[simp] theorem freeCount_sendUp : (s.sendUp p).freeCount = s.freeCount := rfl
@[simp] theorem pending_sendUp : (s.sendUp p).pending = s.pending := rfl

end

section

variable (s : State) (q : Requester) (u : UTag) (status : Status) (data : List Word)

@[simp] theorem resetN_respond : (s.respond q u status data).resetN = s.resetN := rfl
@[simp] theorem syncLevel_respond : (s.respond q u status data).syncLevel = s.syncLevel := rfl
@[simp] theorem timebase_respond : (s.respond q u status data).timebase = s.timebase := rfl
@[simp] theorem outstanding_respond : (s.respond q u status data).outstanding = s.outstanding.filter (fun e => !e.isPair q u) := rfl
@[simp] theorem tags_respond : (s.respond q u status data).tags = s.tags := rfl
@[simp] theorem issueQueue_respond : (s.respond q u status data).issueQueue = s.issueQueue := rfl
@[simp] theorem downTimeout_respond : (s.respond q u status data).downTimeout = s.downTimeout := rfl
@[simp] theorem ring_respond (r : RingId) : (s.respond q u status data).ring r = s.ring r := rfl
@[simp] theorem stamps_respond : (s.respond q u status data).stamps = s.stamps := rfl
@[simp] theorem globalFlags_respond : (s.respond q u status data).globalFlags = s.globalFlags := rfl
@[simp] theorem globalEnables_respond : (s.respond q u status data).globalEnables = s.globalEnables := rfl
@[simp] theorem period_respond : (s.respond q u status data).period = s.period := rfl
@[simp] theorem coalTimer_respond : (s.respond q u status data).coalTimer = s.coalTimer := rfl
@[simp] theorem driver_respond : (s.respond q u status data).driver = s.driver := rfl
@[simp] theorem survey_respond : (s.respond q u status data).survey = s.survey := rfl
@[simp] theorem port_respond : (s.respond q u status data).port = s.port := rfl
@[simp] theorem upResponses_respond : (s.respond q u status data).upResponses = s.upResponses ++ [⟨q, u, status, data⟩] := rfl
@[simp] theorem downRequests_respond : (s.respond q u status data).downRequests = s.downRequests := rfl
@[simp] theorem freeCount_respond : (s.respond q u status data).freeCount = s.freeCount := rfl
@[simp] theorem pending_respond : (s.respond q u status data).pending = s.pending := rfl

end

/-! ## Record updates of the state itself -/

section

variable (s : State)

@[simp] theorem ring_with_timebase (x : Time) (r : RingId) :
    ({ s with timebase := x } : State).ring r = s.ring r := rfl
@[simp] theorem ring_with_issueQueue (x : List Issue) (r : RingId) :
    ({ s with issueQueue := x } : State).ring r = s.ring r := rfl
@[simp] theorem ring_with_outstanding (x : List OutEntry) (r : RingId) :
    ({ s with outstanding := x } : State).ring r = s.ring r := rfl
@[simp] theorem ring_with_stamps (x : Sparse Stamp) (r : RingId) :
    ({ s with stamps := x } : State).ring r = s.ring r := rfl
@[simp] theorem ring_with_globalFlags (x : BitVec 5) (r : RingId) :
    ({ s with globalFlags := x } : State).ring r = s.ring r := rfl
@[simp] theorem ring_with_globalEnables (x : BitVec 5) (r : RingId) :
    ({ s with globalEnables := x } : State).ring r = s.ring r := rfl
@[simp] theorem ring_with_driver (x : Driver) (r : RingId) :
    ({ s with driver := x } : State).ring r = s.ring r := rfl
@[simp] theorem ring_with_pending (x : List Instr) (r : RingId) :
    ({ s with pending := x } : State).ring r = s.ring r := rfl
@[simp] theorem ring_with_syncLevel (x : Bool) (r : RingId) :
    ({ s with syncLevel := x } : State).ring r = s.ring r := rfl
@[simp] theorem ring_with_downTimeout (x : BitVec 16) (r : RingId) :
    ({ s with downTimeout := x } : State).ring r = s.ring r := rfl

end

end Sys2Proof.Laws
end

