-- ==== Sys2Proof/Laws/Line.lean ====
section
/-! SUPPORT. The ALERT_N driver and the enabled-pending flags: what keeps LineSound. -/

namespace Sys2Proof.Laws

open Sys2Proof.Machine

/-! ## Pending flags of a changed state -/

theorem any_rings_congr {p q : RingId → Bool} (h : ∀ r, p r = q r) : allRings.any p = allRings.any q := by
  have : p = q := funext h
  rw [this]

theorem globalPending_congr {s t : State} (flags : t.globalFlags = s.globalFlags)
    (enables : t.globalEnables = s.globalEnables) : t.globalPending = s.globalPending := by
  unfold State.globalPending; rw [flags, enables]

section

variable {s t : State} (global : t.globalPending = s.globalPending)
  (rings : ∀ r, (t.ring r).events.pending = (s.ring r).events.pending)

include global rings

theorem anyPending_congr : t.anyPending = s.anyPending := by
  unfold State.anyPending
  rw [global, any_rings_congr (fun r => by rw [rings r])]

theorem noticeWaits_congr : t.noticeWaits = s.noticeWaits := by
  unfold State.noticeWaits
  rw [global, any_rings_congr (fun r => by rw [rings r])]

theorem urgentPending_congr : t.urgentPending = s.urgentPending := by
  unfold State.urgentPending
  rw [global, any_rings_congr (fun r => by rw [rings r])]

/-- The pending flags, the period and the driver decide LineSound. -/
theorem line_congr (driver : t.driver = s.driver) (period : t.period = s.period)
    (h : LineSound s) : LineSound t := by
  unfold LineSound
  rw [anyPending_congr global rings, urgentPending_congr global rings,
    noticeWaits_congr global rings, driver, period]
  exact h

end

/-- A change of other fields. -/
theorem line_same {s t : State} (rings : t.rings = s.rings) (flags : t.globalFlags = s.globalFlags)
    (enables : t.globalEnables = s.globalEnables) (driver : t.driver = s.driver)
    (period : t.period = s.period) (h : LineSound s) : LineSound t :=
  line_congr (globalPending_congr flags enables)
    (fun r => by unfold State.ring; rw [rings]) driver period h

/-- A change of one ring that leaves its events. -/
theorem line_modRing (s : State) (r : RingId) (f : Ring → Ring)
    (events : (f (s.ring r)).events = (s.ring r).events) (h : LineSound s) :
    LineSound (s.modRing r f) := by
  refine line_congr (s := s) rfl (fun q => ?_) rfl rfl h
  by_cases hq : r = q
  · subst hq; rw [ring_modRing_self, events]
  · rw [ring_modRing_other s f hq]

/-- A change of one ring's events that leaves its pending flags. -/
theorem line_modEvents (s : State) (r : RingId) (f : RingEvents → RingEvents)
    (pending : (f (s.ring r).events).pending = (s.ring r).events.pending) (h : LineSound s) :
    LineSound (s.modEvents r f) := by
  refine line_congr (s := s) rfl (fun q => ?_) rfl rfl h
  by_cases hq : r = q
  · subst hq; rw [ring_modEvents_self]; exact pending
  · rw [ring_modEvents_other s f hq]

/-! ## Bits -/

theorem getElem_zero' {w j : Nat} (hj : j < w) : (0 : BitVec w)[j] = false := by
  simp

theorem or_mask_of_and_ne {w i : Nat} {x : BitVec w} (h : (x &&& (1#w <<< i)) ≠ 0) :
    x ||| (1#w <<< i) = x := by
  apply BitVec.eq_of_getElem_eq
  intro j hj
  rw [BitVec.getElem_or]
  by_cases hx : x[j] = true
  · rw [hx]; rfl
  · have hx : x[j] = false := by simpa using hx
    rw [hx, Bool.false_or]
    by_contra hm
    have hm : (1#w <<< i)[j] = true := by simpa using hm
    have hij : j = i := by
      rw [BitVec.getElem_shiftLeft] at hm
      simp only [Bool.and_eq_true, Bool.not_eq_true', decide_eq_false_iff_not, BitVec.getElem_one,
        decide_eq_true_eq] at hm
      omega
    apply h
    apply BitVec.eq_of_getElem_eq
    intro k hk
    rw [BitVec.getElem_and, getElem_zero']
    by_cases hki : k = j
    · subst hki; rw [hx]; rfl
    · have : (1#w <<< i)[k] = false := by
        rw [BitVec.getElem_shiftLeft]
        simp only [Bool.and_eq_false_iff, Bool.not_eq_false', decide_eq_true_eq,
          BitVec.getElem_one, decide_eq_false_iff_not]
        omega
      rw [this, Bool.and_false]

/-- A report that finds its flag set, or its enable off, leaves the pending flags. -/
theorem pending_or_mask {w i : Nat} {x en : BitVec w}
    (h : ¬((x &&& (1#w <<< i)) = 0 ∧ (en &&& (1#w <<< i)) ≠ 0)) :
    (x ||| (1#w <<< i)) &&& en = x &&& en := by
  by_cases hx : (x &&& (1#w <<< i)) = 0
  · have hen : (en &&& (1#w <<< i)) = 0 := by
      by_contra hen; exact h ⟨hx, hen⟩
    rw [BitVec.and_comm] at hen
    apply BitVec.eq_of_getElem_eq
    intro j hj
    have hj' : ((1#w <<< i) &&& en)[j] = false := by rw [hen, getElem_zero' hj]
    rw [BitVec.getElem_and] at hj'
    rw [BitVec.getElem_and, BitVec.getElem_or, BitVec.getElem_and]
    cases hxj : x[j] <;> cases hmj : (1#w <<< i)[j] <;> simp_all
  · rw [or_mask_of_and_ne hx]

/-- A fresh enabled report leaves something pending. -/
theorem pending_ne_of_fresh {w i : Nat} {x en : BitVec w} (h : (en &&& (1#w <<< i)) ≠ 0) :
    (x ||| (1#w <<< i)) &&& en ≠ 0 := by
  intro h0
  apply h
  apply BitVec.eq_of_getElem_eq
  intro j hj
  have hj' : ((x ||| (1#w <<< i)) &&& en)[j] = false := by rw [h0, getElem_zero' hj]
  rw [BitVec.getElem_and, BitVec.getElem_or] at hj'
  rw [BitVec.getElem_and, getElem_zero']
  cases hmj : (1#w <<< i)[j] <;> simp_all

/-- A report of a flag outside a mask leaves the pending flags inside it. -/
theorem pending_and_other {w : Nat} {x en m k : BitVec w} (h : m &&& k = 0) :
    ((x ||| m) &&& en) &&& k = (x &&& en) &&& k := by
  apply BitVec.eq_of_getElem_eq
  intro j hj
  have hj' : (m &&& k)[j] = false := by rw [h, getElem_zero' hj]
  rw [BitVec.getElem_and] at hj'
  simp only [BitVec.getElem_and, BitVec.getElem_or]
  cases x[j] <;> cases en[j] <;> cases hm : m[j] <;> cases hk : k[j] <;> simp_all

theorem notice_mask_urgent (f : RingFlag) (h : f.urgent = false) :
    f.mask &&& 0x1C1B6#18 = 0 := by
  cases f <;> first | rfl | (simp [RingFlag.urgent] at h)

theorem global_notice_mask_urgent (f : GlobalFlag) (h : f.urgent = false) :
    f.mask &&& 11#5 = 0 := by
  cases f <;> first | rfl | (simp [GlobalFlag.urgent] at h)

/-- What the driver tests at a tick and at a write of the period is that a NOTICE flag waits. -/
theorem noticePending_eq (s : State) : s.noticePending = s.noticeWaits := by
  have hr : ~~~ringUrgentMask = 0x23E49#18 := by decide
  have hg : ~~~globalUrgentMask = 20#5 := by decide
  unfold State.noticePending State.noticeWaits
  rw [hr, hg]

/-! ## Something pending somewhere -/

theorem mem_allRings (r : RingId) : r ∈ allRings := by revert r; decide

theorem anyPending_of_ring {s : State} {r : RingId} (h : (s.ring r).events.pending ≠ 0) :
    s.anyPending = true := by
  unfold State.anyPending
  rw [Bool.or_eq_true]
  exact Or.inr (List.any_eq_true.2 ⟨r, mem_allRings r, by simpa using h⟩)

theorem anyPending_of_global {s : State} (h : s.globalPending ≠ 0) : s.anyPending = true := by
  unfold State.anyPending
  rw [Bool.or_eq_true]
  exact Or.inl (by simpa using h)

/-! ## The driver on a new pending flag -/

theorem driverOnNew_none (s : State) : s.driverOnNew false false = s.driver := by
  simp [State.driverOnNew]

theorem driverOnNew_urgent (s : State) (n : Bool) : s.driverOnNew true n = .asserted := by
  simp [State.driverOnNew]

/-- A new NOTICE flag asserts the line only from RELEASED with a period of 0. -/
theorem driverOnNew_notice (s : State) :
    s.driverOnNew false true =
      if s.driver = .released ∧ s.period = 0 then .asserted else s.driver := by
  unfold State.driverOnNew
  by_cases hd : s.driver = .released <;> by_cases hp : s.period = 0 <;> simp [hd, hp]

/-- A report of a ring's flag keeps the line sound. -/
theorem line_raise (s : State) (r : RingId) (f : RingFlag) (h : LineSound s) :
    LineSound (s.raise r f) := by
  set m := s.modEvents r (fun e => { e with flags := e.flags ||| f.mask }) with hm
  have hev : (m.ring r).events =
      { (s.ring r).events with flags := (s.ring r).events.flags ||| f.mask } := by
    rw [hm, ring_modEvents_self]
  have hring : ∀ q, ((s.raise r f).ring q) = m.ring q := fun q => rfl
  have hother : ∀ q, q ≠ r → m.ring q = s.ring q := fun q hq => by
    rw [hm, ring_modEvents_other _ _ (Ne.symm hq)]
  by_cases hf : ((s.ring r).events.flags &&& f.mask) = 0 ∧ ((s.ring r).events.enables &&& f.mask) ≠ 0
  · -- the flag becomes enabled-pending
    have hpend : ((s.raise r f).ring r).events.pending ≠ 0 := by
      rw [hring, hev]; exact pending_ne_of_fresh hf.2
    have hfresh : (((s.ring r).events.flags &&& f.mask) == 0 &&
        ((s.ring r).events.enables &&& f.mask) != 0) = true := by
      rw [Bool.and_eq_true]; exact ⟨by simpa using hf.1, by simpa using hf.2⟩
    have hdriver : (s.raise r f).driver = s.driverOnNew (true && f.urgent) (true && !f.urgent) := by
      show s.driverOnNew _ _ = _
      rw [hfresh]
    have hany := anyPending_of_ring hpend
    cases hu : f.urgent
    · rw [hu] at hdriver
      have hdriver : (s.raise r f).driver =
          if s.driver = .released ∧ s.period = 0 then .asserted else s.driver :=
        hdriver.trans (driverOnNew_notice s)
      have hurgent : (s.raise r f).urgentPending = s.urgentPending := by
        unfold State.urgentPending
        refine congrArg₂ (· || ·) rfl (any_rings_congr fun q => ?_)
        by_cases hq : q = r
        · subst hq
          rw [hring, hev]
          unfold RingEvents.pending
          rw [pending_and_other (notice_mask_urgent f hu)]
        · rw [hring, hother q hq]
      refine ⟨fun hn => absurd (hn.symm.trans hany) (by decide), fun hup => ?_, fun hp _ => ?_⟩
      · have := h.2.1 (hurgent ▸ hup)
        rw [hdriver]; split
        · decide
        · exact this
      · have hp : s.period = 0 := hp
        rw [hdriver]; split
        · decide
        · rename_i hno; exact fun hd => hno ⟨hd, hp⟩
    · rw [hu] at hdriver
      have hdriver : (s.raise r f).driver = .asserted := hdriver.trans (driverOnNew_urgent s _)
      exact ⟨fun hn => absurd (hn.symm.trans hany) (by decide), fun _ => by rw [hdriver]; decide,
        fun _ _ => by rw [hdriver]; decide⟩
  · -- the pending flags do not change
    have hfresh : (((s.ring r).events.flags &&& f.mask) == 0 &&
        ((s.ring r).events.enables &&& f.mask) != 0) = false := by
      rw [Bool.eq_false_iff]
      intro hc
      rw [Bool.and_eq_true] at hc
      exact hf ⟨by simpa using hc.1, by simpa using hc.2⟩
    refine line_congr (s := s) rfl (fun q => ?_) ?_ rfl h
    · by_cases hq : q = r
      · subst hq
        rw [hring, hev]
        exact pending_or_mask hf
      · rw [hring, hother q hq]
    · show s.driverOnNew _ _ = _
      rw [hfresh]
      exact driverOnNew_none s

/-- A report of a global flag keeps the line sound. -/
theorem line_raiseGlobal (s : State) (f : GlobalFlag) (h : LineSound s) :
    LineSound (s.raiseGlobal f) := by
  have hring : ∀ q, ((s.raiseGlobal f).ring q) = s.ring q := fun q => rfl
  by_cases hf : (s.globalFlags &&& f.mask) = 0 ∧ (s.globalEnables &&& f.mask) ≠ 0
  · have hpend : (s.raiseGlobal f).globalPending ≠ 0 := pending_ne_of_fresh hf.2
    have hfresh : ((s.globalFlags &&& f.mask) == 0 && (s.globalEnables &&& f.mask) != 0) = true := by
      rw [Bool.and_eq_true]; exact ⟨by simpa using hf.1, by simpa using hf.2⟩
    have hdriver : (s.raiseGlobal f).driver = s.driverOnNew (true && f.urgent) (true && !f.urgent) := by
      show s.driverOnNew _ _ = _
      rw [hfresh]
    have hany := anyPending_of_global hpend
    cases hu : f.urgent
    · rw [hu] at hdriver
      have hdriver : (s.raiseGlobal f).driver =
          if s.driver = .released ∧ s.period = 0 then .asserted else s.driver :=
        hdriver.trans (driverOnNew_notice s)
      have hurgent : (s.raiseGlobal f).urgentPending = s.urgentPending := by
        unfold State.urgentPending
        refine congrArg₂ (· || ·) ?_ (any_rings_congr fun q => rfl)
        have : (s.raiseGlobal f).globalPending &&& 11#5 =
            s.globalPending &&& 11#5 := pending_and_other (global_notice_mask_urgent f hu)
        rw [this]
      refine ⟨fun hn => absurd (hn.symm.trans hany) (by decide), fun hup => ?_, fun hp _ => ?_⟩
      · have := h.2.1 (hurgent ▸ hup)
        rw [hdriver]; split
        · decide
        · exact this
      · have hp : s.period = 0 := hp
        rw [hdriver]; split
        · decide
        · rename_i hno; exact fun hd => hno ⟨hd, hp⟩
    · rw [hu] at hdriver
      have hdriver : (s.raiseGlobal f).driver = .asserted := hdriver.trans (driverOnNew_urgent s _)
      exact ⟨fun hn => absurd (hn.symm.trans hany) (by decide), fun _ => by rw [hdriver]; decide,
        fun _ _ => by rw [hdriver]; decide⟩
  · have hfresh : ((s.globalFlags &&& f.mask) == 0 && (s.globalEnables &&& f.mask) != 0) = false := by
      rw [Bool.eq_false_iff]
      intro hc
      rw [Bool.and_eq_true] at hc
      exact hf ⟨by simpa using hc.1, by simpa using hc.2⟩
    refine line_congr (s := s) ?_ (fun q => rfl) ?_ rfl h
    · exact pending_or_mask hf
    · show s.driverOnNew _ _ = _
      rw [hfresh]
      exact driverOnNew_none s

end Sys2Proof.Laws
end

