-- ==== Sys2Proof/Laws/Sparse.lean ====
section
/-! SUPPORT. The sparse tables: reading back what was written, and keeping the canonical form. -/

namespace Sys2Proof.Laws

open Sys2Proof.Machine

variable {α : Type} (d : α)

theorem sparseWf_nil : SparseWf d ([] : Sparse α) := by simp [SparseWf]

theorem sparseWf_tail {e : Nat × α} {m : Sparse α} (h : SparseWf d (e :: m)) : SparseWf d m :=
  ⟨(List.pairwise_cons.1 h.1).2, fun x hx => h.2 x (List.mem_cons_of_mem _ hx)⟩

theorem sparseWf_cons {k : Nat} {v : α} {m : Sparse α} (hk : ∀ e ∈ m, k < e.1) (hv : v ≠ d)
    (h : SparseWf d m) : SparseWf d ((k, v) :: m) := by
  refine ⟨List.pairwise_cons.2 ⟨fun e he => hk e he, h.1⟩, fun e he => ?_⟩
  rcases List.mem_cons.1 he with rfl | he
  · exact hv
  · exact h.2 e he

/-- A key of the table after a write is the key written, or was there. -/
theorem mem_sparsePut [DecidableEq α] {m : Sparse α} {k : Nat} {v : α} {e : Nat × α} (h : e ∈ sparsePut d m k v) :
    e.1 = k ∨ e ∈ m := by
  induction m with
  | nil => unfold sparsePut at h; split at h <;> simp_all
  | cons x m ih =>
    obtain ⟨k', v'⟩ := x
    unfold sparsePut at h
    split at h
    · split at h
      · exact Or.inr h
      · rcases List.mem_cons.1 h with rfl | h
        · exact Or.inl rfl
        · exact Or.inr h
    · split at h
      · split at h
        · exact Or.inr (List.mem_cons_of_mem _ h)
        · rcases List.mem_cons.1 h with rfl | h
          · exact Or.inl rfl
          · exact Or.inr (List.mem_cons_of_mem _ h)
      · rcases List.mem_cons.1 h with rfl | h
        · simp
        · rcases ih h with h | h
          · exact Or.inl h
          · exact Or.inr (List.mem_cons_of_mem _ h)

/-- A write keeps the canonical form. -/
theorem sparsePut_wf [DecidableEq α] {m : Sparse α} (k : Nat) (v : α) (h : SparseWf d m) :
    SparseWf d (sparsePut d m k v) := by
  induction m with
  | nil =>
    unfold sparsePut
    split
    · exact h
    · exact sparseWf_cons d (by simp) ‹_› h
  | cons x m ih =>
    obtain ⟨k', v'⟩ := x
    have hm := sparseWf_tail d h
    have hlt : ∀ e ∈ m, k' < e.1 := (List.pairwise_cons.1 h.1).1
    have hv' : v' ≠ d := h.2 _ List.mem_cons_self
    unfold sparsePut
    split
    · rename_i hk
      split
      · exact h
      · refine sparseWf_cons d (fun e he => ?_) ‹_› h
        rcases List.mem_cons.1 he with rfl | he
        · exact hk
        · exact lt_trans hk (hlt e he)
    · split
      · rename_i hk
        split
        · exact hm
        · exact sparseWf_cons d (fun e he => hk ▸ hlt e he) ‹_› hm
      · rename_i h1 h2
        refine sparseWf_cons d (fun e he => ?_) hv' (ih hm)
        rcases mem_sparsePut d he with he | he
        · omega
        · exact hlt e he

/-- Giving keys back to the default keeps the canonical form. -/
theorem sparseClear_wf (p : Nat → Bool) {m : Sparse α} (h : SparseWf d m) :
    SparseWf d (sparseClear p m) :=
  ⟨h.1.filter _, fun e he => h.2 e (List.mem_of_mem_filter he)⟩

theorem sparseGet_of_lt {m : Sparse α} {k : Nat} (h : ∀ e ∈ m, k < e.1) : sparseGet d m k = d := by
  induction m with
  | nil => rfl
  | cons x m ih =>
    obtain ⟨k', v'⟩ := x
    have hk : k < k' := h _ List.mem_cons_self
    unfold sparseGet
    rw [if_neg (by omega)]
    exact ih (fun e he => h e (List.mem_cons_of_mem _ he))

/-- The key written reads as what was written. -/
theorem sparseGet_put_self [DecidableEq α] {m : Sparse α} (k : Nat) (v : α) (h : SparseWf d m) :
    sparseGet d (sparsePut d m k v) k = v := by
  induction m with
  | nil =>
    unfold sparsePut
    split
    · simp_all [sparseGet]
    · simp [sparseGet]
  | cons x m ih =>
    obtain ⟨k', v'⟩ := x
    have hm := sparseWf_tail d h
    have hlt : ∀ e ∈ m, k' < e.1 := (List.pairwise_cons.1 h.1).1
    unfold sparsePut
    split
    · rename_i hk
      split
      · rename_i hv
        rw [hv]
        refine sparseGet_of_lt d (fun e he => ?_)
        rcases List.mem_cons.1 he with rfl | he
        · exact hk
        · exact lt_trans hk (hlt e he)
      · simp [sparseGet]
    · split
      · rename_i hk
        split
        · rename_i hv
          rw [hv]
          exact sparseGet_of_lt d (fun e he => hk ▸ hlt e he)
        · simp [sparseGet]
      · rename_i h1 h2
        unfold sparseGet
        rw [if_neg (by omega)]
        exact ih hm

/-- Another key reads as before. -/
theorem sparseGet_put_other [DecidableEq α] {m : Sparse α} {k j : Nat} (v : α) (hj : j ≠ k) (h : SparseWf d m) :
    sparseGet d (sparsePut d m k v) j = sparseGet d m j := by
  induction m with
  | nil =>
    unfold sparsePut
    split
    · rfl
    · simp [sparseGet, Ne.symm hj]
  | cons x m ih =>
    obtain ⟨k', v'⟩ := x
    unfold sparsePut
    split
    · split
      · rfl
      · conv_lhs => unfold sparseGet
        rw [if_neg (Ne.symm hj)]
    · split
      · rename_i hk
        have hj' : k' ≠ j := fun h => hj (by omega)
        split
        · conv_rhs => unfold sparseGet
          rw [if_neg hj']
        · conv_lhs => unfold sparseGet
          conv_rhs => unfold sparseGet
          rw [if_neg (Ne.symm hj), if_neg hj']
      · conv_lhs => unfold sparseGet
        conv_rhs => unfold sparseGet
        rw [ih (sparseWf_tail d h)]

/-- A key not given back reads as before. -/
theorem sparseGet_clear_other {p : Nat → Bool} {m : Sparse α} {k : Nat} (hk : p k = false) :
    sparseGet d (sparseClear p m) k = sparseGet d m k := by
  induction m with
  | nil => rfl
  | cons x m ih =>
    obtain ⟨k', v'⟩ := x
    by_cases hp : p k' = true
    · have hne : k' ≠ k := fun h => by rw [h, hk] at hp; cases hp
      have : sparseClear p ((k', v') :: m) = sparseClear p m := by simp [sparseClear, hp]
      rw [this, ih]
      conv_rhs => unfold sparseGet
      rw [if_neg hne]
    · have : sparseClear p ((k', v') :: m) = (k', v') :: sparseClear p m := by
        simp [sparseClear, hp]
      rw [this]
      conv_lhs => unfold sparseGet
      conv_rhs => unfold sparseGet
      rw [ih]

/-- A key given back reads as the default. -/
theorem sparseGet_clear_self {p : Nat → Bool} {m : Sparse α} {k : Nat} (hk : p k = true) :
    sparseGet d (sparseClear p m) k = d := by
  induction m with
  | nil => rfl
  | cons x m ih =>
    obtain ⟨k', v'⟩ := x
    by_cases hp : p k' = true
    · have : sparseClear p ((k', v') :: m) = sparseClear p m := by simp [sparseClear, hp]
      rw [this, ih]
    · have : sparseClear p ((k', v') :: m) = (k', v') :: sparseClear p m := by
        simp [sparseClear, hp]
      have hne : k' ≠ k := fun h => hp (h ▸ hk)
      rw [this]
      conv_lhs => unfold sparseGet
      rw [if_neg hne, ih]

end Sys2Proof.Laws
end

