-- ==== Sys2Proof/Laws/Inner.lean ====
section
/-! SUPPORT. What the engines of one ring can do: the relation Inner, its closure, and the lemma of each
primitive update. An operation of a ring's engines moves the state by Inner of that ring. -/

namespace Sys2Proof.Laws

open Sys2Proof.Machine

/-- What no engine changes in its ring: the configuration, the ring state, the stamp blocks, the command
fields, the one-second run, the enables and the bank; flags stay set and counters do not fall. -/
structure Kept (x y : Ring) : Prop where
  config : y.config = x.config
  state : y.state = x.state
  blocks : y.blocks = x.blocks
  command : y.command = x.command
  result : y.result = x.result
  secondTimer : y.secondTimer = x.secondTimer
  enables : y.events.enables = x.events.enables
  bank : y.events.bank = x.events.bank
  flags : x.events.flags &&& y.events.flags = x.events.flags
  counters : ∀ i : Fin 15, x.events.counters[i].toNat ≤ y.events.counters[i].toNat

theorem Kept.refl (x : Ring) : Kept x x :=
  ⟨rfl, rfl, rfl, rfl, rfl, rfl, rfl, rfl, BitVec.and_self, fun _ => le_rfl⟩

theorem Kept.trans {x y z : Ring} (a : Kept x y) (b : Kept y z) : Kept x z where
  config := b.config.trans a.config
  state := b.state.trans a.state
  blocks := b.blocks.trans a.blocks
  command := b.command.trans a.command
  result := b.result.trans a.result
  secondTimer := b.secondTimer.trans a.secondTimer
  enables := b.enables.trans a.enables
  bank := b.bank.trans a.bank
  flags := by
    have h : (x.events.flags &&& y.events.flags) &&& z.events.flags = x.events.flags := by
      rw [BitVec.and_assoc, b.flags, a.flags]
    rwa [a.flags] at h
  counters := fun i => (a.counters i).trans (b.counters i)

/-- What an operation of ring `r`'s engines leaves of the whole state, and how it may move the rest. -/
structure Inner (r : RingId) (s t : State) : Prop where
  resetN : t.resetN = s.resetN
  syncLevel : t.syncLevel = s.syncLevel
  timebase : t.timebase = s.timebase
  tags : t.tags = s.tags
  downTimeout : t.downTimeout = s.downTimeout
  globalEnables : t.globalEnables = s.globalEnables
  period : t.period = s.period
  coalTimer : t.coalTimer = s.coalTimer
  port : t.port = s.port
  downRequests : t.downRequests = s.downRequests
  pending : t.pending = s.pending
  setup : t.survey.setup = s.survey.setup
  ring : Kept (s.ring r) (t.ring r)
  others : ∀ q, q ≠ r → t.ring q = s.ring q
  globalFlags : s.globalFlags &&& t.globalFlags = s.globalFlags
  outstanding : t.outstanding.Sublist s.outstanding
  upResponses : s.upResponses <+: t.upResponses
  issues : ∃ l, t.issueQueue = s.issueQueue ++ l ∧ ∀ i ∈ l, i.owner.ofRing r = true
  stampsWf : SparseWf Stamp.zero s.stamps → SparseWf Stamp.zero t.stamps
  stampsOther : SparseWf Stamp.zero s.stamps → ∀ i, i / Config.blockEntries ∉ (s.ring r).blocks →
    sparseGet Stamp.zero t.stamps i = sparseGet Stamp.zero s.stamps i
  line : LineSound s → LineSound t

theorem Inner.refl (r : RingId) (s : State) : Inner r s s :=
  ⟨rfl, rfl, rfl, rfl, rfl, rfl, rfl, rfl, rfl, rfl, rfl, rfl, Kept.refl _, fun _ _ => rfl,
    BitVec.and_self, List.Sublist.refl _, List.prefix_refl _, ⟨[], (List.append_nil _).symm, by simp⟩, fun h => h,
    fun _ _ _ => rfl, fun h => h⟩

theorem Inner.trans {r : RingId} {s t u : State} (a : Inner r s t) (b : Inner r t u) :
    Inner r s u where
  resetN := b.resetN.trans a.resetN
  syncLevel := b.syncLevel.trans a.syncLevel
  timebase := b.timebase.trans a.timebase
  tags := b.tags.trans a.tags
  downTimeout := b.downTimeout.trans a.downTimeout
  globalEnables := b.globalEnables.trans a.globalEnables
  period := b.period.trans a.period
  coalTimer := b.coalTimer.trans a.coalTimer
  port := b.port.trans a.port
  downRequests := b.downRequests.trans a.downRequests
  pending := b.pending.trans a.pending
  setup := b.setup.trans a.setup
  ring := a.ring.trans b.ring
  others := fun q h => (b.others q h).trans (a.others q h)
  globalFlags := by
    have h : (s.globalFlags &&& t.globalFlags) &&& u.globalFlags = s.globalFlags := by
      rw [BitVec.and_assoc, b.globalFlags, a.globalFlags]
    rwa [a.globalFlags] at h
  outstanding := b.outstanding.trans a.outstanding
  upResponses := a.upResponses.trans b.upResponses
  issues := by
    obtain ⟨l, hl, hl'⟩ := a.issues
    obtain ⟨m, hm, hm'⟩ := b.issues
    refine ⟨l ++ m, by rw [hm, hl, List.append_assoc], fun i hi => ?_⟩
    rcases List.mem_append.1 hi with hi | hi
    · exact hl' i hi
    · exact hm' i hi
  stampsWf := fun h => b.stampsWf (a.stampsWf h)
  stampsOther := fun h i hi =>
    (b.stampsOther (a.stampsWf h) i (a.ring.blocks ▸ hi)).trans (a.stampsOther h i hi)
  line := fun h => b.line (a.line h)

/-- Two operations one after the other. -/
theorem Inner.then {r : RingId} {s t u : State} (b : Inner r t u) (a : Inner r s t) : Inner r s u :=
  a.trans b

/-! ## Primitive updates of the ring -/

theorem inner_setRing (s : State) (r : RingId) (x : Ring) (h : Kept (s.ring r) x)
    (line : LineSound s → LineSound (s.setRing r x)) : Inner r s (s.setRing r x) where
  resetN := rfl
  syncLevel := rfl
  timebase := rfl
  tags := rfl
  downTimeout := rfl
  globalEnables := rfl
  period := rfl
  coalTimer := rfl
  port := rfl
  downRequests := rfl
  pending := rfl
  setup := rfl
  ring := by rw [ring_setRing_self]; exact h
  others := fun q hq => ring_setRing_other s x (Ne.symm hq)
  globalFlags := BitVec.and_self
  outstanding := List.Sublist.refl _
  upResponses := List.prefix_refl _
  issues := ⟨[], (List.append_nil _).symm, by simp⟩
  stampsWf := fun h => h
  stampsOther := fun _ _ _ => rfl
  line := line

/-- An update that leaves the events and the seven fields of Kept. -/
theorem Kept.of_same {x y : Ring} (config : y.config = x.config) (state : y.state = x.state)
    (blocks : y.blocks = x.blocks) (command : y.command = x.command) (result : y.result = x.result)
    (secondTimer : y.secondTimer = x.secondTimer) (events : y.events = x.events) : Kept x y where
  config := config
  state := state
  blocks := blocks
  command := command
  result := result
  secondTimer := secondTimer
  enables := by rw [events]
  bank := by rw [events]
  flags := by rw [events]; exact BitVec.and_self
  counters := fun i => by rw [events]

theorem inner_modRing (s : State) (r : RingId) (f : Ring → Ring)
    (h : Kept (s.ring r) (f (s.ring r))) (events : (f (s.ring r)).events = (s.ring r).events) :
    Inner r s (s.modRing r f) := inner_setRing s r _ h (line_modRing s r f events)

theorem inner_modPut (s : State) (r : RingId) (f : PutEngine → PutEngine) :
    Inner r s (s.modPut r f) :=
  inner_modRing s r _ (Kept.of_same rfl rfl rfl rfl rfl rfl rfl) rfl

theorem inner_modTake (s : State) (r : RingId) (f : TakeEngine → TakeEngine) :
    Inner r s (s.modTake r f) :=
  inner_modRing s r _ (Kept.of_same rfl rfl rfl rfl rfl rfl rfl) rfl

theorem inner_modAlign (s : State) (r : RingId) (f : AlignChecker → AlignChecker) :
    Inner r s (s.modAlign r f) :=
  inner_modRing s r _ (Kept.of_same rfl rfl rfl rfl rfl rfl rfl) rfl

theorem inner_modCadence (s : State) (r : RingId) (f : CadenceMonitor → CadenceMonitor) :
    Inner r s (s.modCadence r f) :=
  inner_modRing s r _ (Kept.of_same rfl rfl rfl rfl rfl rfl rfl) rfl

/-! ## Primitive updates of the rest -/

/-- The link, the issue queue and the tables of a state that an engine may move. -/
theorem inner_of_rings {r : RingId} {s t : State} (resetN : t.resetN = s.resetN)
    (syncLevel : t.syncLevel = s.syncLevel) (timebase : t.timebase = s.timebase)
    (tags : t.tags = s.tags) (downTimeout : t.downTimeout = s.downTimeout)
    (globalEnables : t.globalEnables = s.globalEnables) (period : t.period = s.period)
    (coalTimer : t.coalTimer = s.coalTimer) (port : t.port = s.port)
    (downRequests : t.downRequests = s.downRequests) (pending : t.pending = s.pending)
    (setup : t.survey.setup = s.survey.setup) (rings : t.rings = s.rings)
    (globalFlags : s.globalFlags &&& t.globalFlags = s.globalFlags)
    (outstanding : t.outstanding.Sublist s.outstanding) (upResponses : s.upResponses <+: t.upResponses)
    (issues : ∃ l, t.issueQueue = s.issueQueue ++ l ∧ ∀ i ∈ l, i.owner.ofRing r = true)
    (stamps : t.stamps = s.stamps) (line : LineSound s → LineSound t) : Inner r s t where
  resetN := resetN
  syncLevel := syncLevel
  timebase := timebase
  tags := tags
  downTimeout := downTimeout
  globalEnables := globalEnables
  period := period
  coalTimer := coalTimer
  port := port
  downRequests := downRequests
  pending := pending
  setup := setup
  ring := by
    have : t.ring r = s.ring r := by unfold State.ring; rw [rings]
    rw [this]; exact Kept.refl _
  others := fun q _ => by unfold State.ring; rw [rings]
  globalFlags := globalFlags
  outstanding := outstanding
  upResponses := upResponses
  issues := issues
  stampsWf := fun h => by rw [stamps]; exact h
  stampsOther := fun _ _ _ => by rw [stamps]
  line := line

theorem inner_respond (s : State) (r : RingId) (q : Requester) (u : UTag) (status : Status)
    (data : List Word) : Inner r s (s.respond q u status data) :=
  inner_of_rings rfl rfl rfl rfl rfl rfl rfl rfl rfl rfl rfl rfl rfl BitVec.and_self
    List.filter_sublist (List.prefix_append _ _) ⟨[], (List.append_nil _).symm, by simp⟩ rfl
    (line_same rfl rfl rfl rfl rfl)

theorem inner_handDown (s : State) (r : RingId) (i : Issue) (h : i.owner.ofRing r = true) :
    Inner r s (s.handDown i) :=
  inner_of_rings rfl rfl rfl rfl rfl rfl rfl rfl rfl rfl rfl rfl rfl BitVec.and_self
    (List.Sublist.refl _) (List.prefix_refl _) ⟨[i], rfl, by simpa using h⟩ rfl
    (line_same rfl rfl rfl rfl rfl)

theorem inner_modSurvey (s : State) (r : RingId) (f : Survey → Survey)
    (h : (f s.survey).setup = s.survey.setup) : Inner r s (s.modSurvey f) :=
  inner_of_rings rfl rfl rfl rfl rfl rfl rfl rfl rfl rfl rfl h rfl BitVec.and_self
    (List.Sublist.refl _) (List.prefix_refl _) ⟨[], (List.append_nil _).symm, by simp⟩ rfl
    (line_same rfl rfl rfl rfl rfl)

/-- A value is within itself with more bits set. -/
theorem and_or_self {w : Nat} (x m : BitVec w) : x &&& (x ||| m) = x := by
  apply BitVec.eq_of_getElem_eq
  intro i hi
  simp only [BitVec.getElem_and, BitVec.getElem_or]
  cases x[i] <;> simp

theorem inner_raiseGlobal (s : State) (r : RingId) (f : GlobalFlag) : Inner r s (s.raiseGlobal f) :=
  inner_of_rings rfl rfl rfl rfl rfl rfl rfl rfl rfl rfl rfl rfl rfl (and_or_self _ _)
    (List.Sublist.refl _) (List.prefix_refl _) ⟨[], (List.append_nil _).symm, by simp⟩ rfl
    (line_raiseGlobal s f)

/-- An update of the events, with a driver, that keeps enables and bank, loses no flag, lowers no
counter and keeps the line sound. -/
theorem inner_events (s : State) (r : RingId) (f : RingEvents → RingEvents) (d : Driver)
    (enables : (f (s.ring r).events).enables = (s.ring r).events.enables)
    (bank : (f (s.ring r).events).bank = (s.ring r).events.bank)
    (flags : (s.ring r).events.flags &&& (f (s.ring r).events).flags = (s.ring r).events.flags)
    (counters : ∀ i : Fin 15, (s.ring r).events.counters[i].toNat ≤
      (f (s.ring r).events).counters[i].toNat)
    (line : LineSound s → LineSound { s.modEvents r f with driver := d }) :
    Inner r s { s.modEvents r f with driver := d } where
  resetN := rfl
  syncLevel := rfl
  timebase := rfl
  tags := rfl
  downTimeout := rfl
  globalEnables := rfl
  period := rfl
  coalTimer := rfl
  port := rfl
  downRequests := rfl
  pending := rfl
  setup := rfl
  ring := by
    show Kept (s.ring r) ((s.modEvents r f).ring r)
    rw [ring_modEvents_self]
    exact ⟨rfl, rfl, rfl, rfl, rfl, rfl, enables, bank, flags, counters⟩
  others := fun q hq => ring_modEvents_other s f (Ne.symm hq)
  globalFlags := BitVec.and_self
  outstanding := List.Sublist.refl _
  upResponses := List.prefix_refl _
  issues := ⟨[], (List.append_nil _).symm, by simp⟩
  stampsWf := fun h => h
  stampsOther := fun _ _ _ => rfl
  line := line

theorem inner_raise (s : State) (r : RingId) (f : RingFlag) : Inner r s (s.raise r f) :=
  inner_events s r _ _ rfl rfl (and_or_self _ _) (fun _ => le_rfl) (line_raise s r f)

/-- A counter's advance does not lower it. -/
theorem le_advanceCounter (c : BitVec 32) (n : Nat) : c.toNat ≤ (advanceCounter c n).toNat := by
  have h := c.isLt
  unfold advanceCounter
  rw [BitVec.toNat_ofNat, Nat.mod_eq_of_lt (by omega)]
  omega

theorem inner_bump (s : State) (r : RingId) (c : Counter) (n : Nat) : Inner r s (s.bump r c n) where
  resetN := rfl
  syncLevel := rfl
  timebase := rfl
  tags := rfl
  downTimeout := rfl
  globalEnables := rfl
  period := rfl
  coalTimer := rfl
  port := rfl
  downRequests := rfl
  pending := rfl
  setup := rfl
  ring := by
    unfold State.bump
    rw [ring_modEvents_self]
    refine ⟨rfl, rfl, rfl, rfl, rfl, rfl, rfl, rfl, BitVec.and_self, fun i => ?_⟩
    simp only [Fin.getElem_fin, Vector.getElem_set]
    split
    · rename_i h
      simp only [h]
      exact le_advanceCounter _ n
    · exact le_rfl
  others := fun q hq => ring_modEvents_other s _ (Ne.symm hq)
  globalFlags := BitVec.and_self
  outstanding := List.Sublist.refl _
  upResponses := List.prefix_refl _
  issues := ⟨[], (List.append_nil _).symm, by simp⟩
  stampsWf := fun h => h
  stampsOther := fun _ _ _ => rfl
  line := line_modEvents s r _ rfl

/-- The index of a position's entry lies in one of the ring's blocks. -/
theorem stampIndex_block {x : Ring} {p i : Nat} (h : x.stampIndex p = some i) :
    i / Config.blockEntries ∈ x.blocks := by
  unfold Ring.stampIndex at h
  rw [Option.map_eq_some_iff] at h
  obtain ⟨b, hb, rfl⟩ := h
  have : (b * Config.blockEntries + p % Config.blockEntries) / Config.blockEntries = b := by
    simp only [Config.blockEntries]; omega
  rw [this]
  exact List.mem_of_getElem? hb

theorem inner_writeStamp (s : State) (r : RingId) (p : Nat) (e : Stamp) :
    Inner r s (s.writeStamp r p e) := by
  unfold State.writeStamp
  split
  · rename_i i hi
    exact
      { resetN := rfl, syncLevel := rfl, timebase := rfl, tags := rfl, downTimeout := rfl
        globalEnables := rfl, period := rfl, coalTimer := rfl, port := rfl, downRequests := rfl
        pending := rfl, setup := rfl, ring := Kept.refl _, others := fun _ _ => rfl
        globalFlags := BitVec.and_self, outstanding := List.Sublist.refl _
        upResponses := List.prefix_refl _, issues := ⟨[], (List.append_nil _).symm, by simp⟩
        stampsWf := fun h => sparsePut_wf _ _ _ h
        stampsOther := fun h j hj =>
          sparseGet_put_other _ _ (fun he => hj (he ▸ stampIndex_block hi)) h
        line := line_same rfl rfl rfl rfl rfl }
  · exact Inner.refl r s

end Sys2Proof.Laws
end

