-- ==== Sys2Proof/Laws/Engines.lean ====
section
/-! SUPPORT. Every shared operation of a ring's engines is Inner of that ring: one lemma for each. -/

namespace Sys2Proof.Laws

open Sys2Proof.Machine

/-! ## Events and records -/

theorem inner_recordPut (s : State) (r : RingId) (c : Cause) (q : Requester) (k : Nat) :
    Inner r s (s.recordPut r c q k) :=
  ((inner_modPut s r _).trans (inner_raise _ r _)).trans (inner_bump _ r _ 1)

theorem inner_recordTake (s : State) (r : RingId) (c : Cause) (q : Requester) (k : Nat) :
    Inner r s (s.recordTake r c q k) :=
  ((inner_modTake s r _).trans (inner_raise _ r _)).trans (inner_bump _ r _ 1)

theorem inner_respondFill (s : State) (r : RingId) (q : Requester) (u : UTag) (c : Nat) :
    Inner r s (s.respondFill r q u c) := inner_respond s r q u _ _

theorem inner_respondError (s : State) (r : RingId) (q : Requester) (u : UTag) :
    Inner r s (s.respondError q u) := inner_respond s r q u _ _

/-! ## Survey -/

theorem stopped_setup (v : Survey) : v.stopped.setup = v.setup := rfl

theorem ended_setup (v : Survey) (acc : Accumulators) (limitExit : Bool) :
    (v.ended acc limitExit).setup = v.setup := rfl

theorem newCycle_setup (v : Survey) (now : Time) : (v.newCycle now).setup = v.setup := by
  unfold Survey.newCycle
  dsimp only
  split
  · rfl
  · rfl
  · rfl
  all_goals (split <;> rfl)

theorem goOn_setup (v : Survey) (now : Time) : (v.goOn now).setup = v.setup := by
  unfold Survey.goOn
  cases v.setup.trigger <;> rfl

theorem inner_surveySample (s : State) (r : RingId) (n : Nat) : Inner r s (s.surveySample n) := by
  unfold State.surveySample
  dsimp only
  split
  · exact (inner_modSurvey s r _ rfl).trans (inner_raiseGlobal _ r _)
  · split
    · split
      · exact inner_modSurvey s r _ (newCycle_setup _ _)
      · exact (inner_modSurvey s r _ rfl).trans (inner_raiseGlobal _ r _)
    · exact inner_modSurvey s r _ (goOn_setup _ _)

theorem inner_surveySampleOcc (s : State) (r : RingId) : Inner r s s.surveySampleOcc :=
  inner_surveySample s r _

theorem inner_surveyPublish (s : State) (r : RingId) (n : Nat) : Inner r s (s.surveyPublish r n) := by
  unfold State.surveyPublish
  dsimp only
  split
  · exact inner_surveySample s r n
  · exact Inner.refl r s

theorem inner_surveyTakeStart (s : State) (r : RingId) (n d : Nat) :
    Inner r s (s.surveyTakeStart r n d) := by
  unfold State.surveyTakeStart
  dsimp only
  split
  · split <;> exact inner_surveySample s r _
  · exact Inner.refl r s

theorem inner_surveySourceLoss (s : State) (r : RingId) : Inner r s (s.surveySourceLoss r) := by
  unfold State.surveySourceLoss
  split
  · exact (inner_modSurvey s r _ rfl).trans (inner_raiseGlobal _ r _)
  · exact Inner.refl r s

/-! ## Cadence -/

theorem inner_cadenceStart (s : State) (r : RingId) : Inner r s (s.cadenceStart r) := by
  unfold State.cadenceStart
  dsimp only
  split
  · exact ((inner_modCadence s r _).trans (inner_raise _ r _)).trans (inner_bump _ r _ 1)
  · exact inner_modCadence s r _

theorem inner_cadenceLate (s : State) (r : RingId) : Inner r s (s.cadenceLate r) := by
  unfold State.cadenceLate
  dsimp only
  split
  · exact inner_modCadence s r _
  · split
    · exact (((((inner_modCadence s r _).trans (inner_modCadence _ r _)).trans
        (inner_raise _ r _)).trans (inner_bump _ r _ 1)).trans (inner_modCadence _ r _)).trans
        (inner_raise _ r _)
    · exact (((inner_modCadence s r _).trans (inner_modCadence _ r _)).trans
        (inner_raise _ r _)).trans (inner_bump _ r _ 1)

/-! ## Alignment -/

theorem inner_raiseOpt (s : State) (r : RingId) (f : Option RingFlag) : Inner r s (s.raiseOpt r f) := by
  cases f
  · exact Inner.refl r s
  · exact inner_raise s r _

theorem inner_alignCheckReport (s : State) (r : RingId) : Inner r s (s.alignCheckReport r) := by
  unfold State.alignCheckReport
  dsimp only
  split
  · split
    · exact (inner_modAlign s r _).trans (inner_raise _ r _)
    · exact inner_modAlign s r _
  all_goals exact Inner.refl r s

theorem inner_alignBypass (s : State) (r : RingId) : Inner r s (s.alignBypass r) :=
  (inner_modAlign s r _).trans (inner_raise _ r _)

/-! ## Pacing -/

theorem kept_departN (x : Ring) (n : Nat) : Kept x (x.departN n) :=
  Kept.of_same rfl rfl rfl rfl rfl rfl rfl

theorem inner_ageOutHead (s : State) (r : RingId) : Inner r s (s.ageOutHead r) :=
  ((inner_modRing s r _ (kept_departN _ 1) rfl).trans (inner_raise _ r _)).trans (inner_bump _ r _ 1)

theorem inner_ageTimer (s : State) (r : RingId) (t : Option Timer) :
    Inner r s (s.modRing r (fun x => { x with ageTimer := t })) :=
  inner_modRing s r _ (Kept.of_same rfl rfl rfl rfl rfl rfl rfl) rfl

theorem inner_armAge (n : Nat) (s : State) (r : RingId) : Inner r s (State.armAge n s r) := by
  induction n generalizing s with
  | zero => exact inner_ageTimer s r _
  | succ n ih =>
    unfold State.armAge
    dsimp only
    split
    · exact inner_ageTimer s r _
    · split
      · exact (inner_ageOutHead s r).trans (ih _)
      · exact inner_ageTimer s r _

theorem inner_rearmAge (s : State) (r : RingId) : Inner r s (s.rearmAge r) := inner_armAge _ s r

theorem inner_dropSlip (s : State) (r : RingId) : Inner r s (s.dropSlip r) := by
  unfold State.dropSlip
  dsimp only
  split
  · exact Inner.refl r s
  · exact ((inner_modRing s r _ (kept_departN _ _) rfl).trans (inner_raise _ r _)).trans (inner_bump _ r _ _)

theorem inner_clearTake (s : State) (r : RingId) : Inner r s (s.clearTake r) := inner_modTake s r _

theorem inner_revokeTake (s : State) (r : RingId) : Inner r s (s.revokeTake r) := by
  unfold State.revokeTake
  split
  · exact ((inner_clearTake s r).trans (inner_raise _ r _)).trans (inner_bump _ r _ 1)
  · exact Inner.refl r s

/-! ## The Put Engine -/

theorem inner_refusePut (s : State) (r : RingId) (q : PutReq) (c : Cause) :
    Inner r s (s.refusePut r q c) := (inner_recordPut s r _ _ _).trans (inner_respondError _ r _ _)

theorem inner_restartTear (s : State) (r : RingId) (q : Requester) : Inner r s (s.restartTear r q) :=
  (inner_modPut s r _).trans (inner_recordPut _ r _ _ _)

theorem inner_collide (s : State) (r : RingId) : Inner r s (s.collide r) := by
  unfold State.collide
  split
  · exact inner_revokeTake s r
  · exact Inner.refl r s

theorem inner_putEngine (s : State) (r : RingId) (f : Ring → PutEngine) :
    Inner r s (s.modRing r (fun x => { x with put := f x })) :=
  inner_modRing s r _ (Kept.of_same rfl rfl rfl rfl rfl rfl rfl) rfl

theorem inner_takeHeader (s : State) (r : RingId) (h : Word) (fresh : Bool) :
    Inner r s (s.takeHeader r h fresh) := by
  unfold State.takeHeader
  dsimp only
  split
  · exact (inner_collide s r).trans (inner_putEngine _ r _)
  · exact inner_putEngine s r _

theorem inner_acceptWords (s : State) (r : RingId) (q : PutReq) (ws : List Word) :
    Inner r s (s.acceptWords r q ws) :=
  (inner_putEngine s r _).trans (inner_handDown _ r _ (by simp [Ring.putIssue, Owner.ofRing]))

theorem inner_judgeNoRoom (s : State) (r : RingId) (q : PutReq) :
    Inner r s (s.judgeNoRoom r q).1 := by
  unfold State.judgeNoRoom
  dsimp only
  split
  · exact inner_refusePut s r q _
  · split
    · exact inner_refusePut s r q _
    · exact Inner.refl r s

theorem inner_judgeHeaderPassed (s : State) (r : RingId) (q : PutReq) (ws : List Word) :
    Inner r s (s.judgeHeaderPassed r q ws).1 := by
  unfold State.judgeHeaderPassed
  dsimp only
  split
  · split
    · exact Inner.refl r s
    · exact ((inner_restartTear s r _).trans (inner_takeHeader _ r _ _)).trans
        (inner_acceptWords _ r _ _)
  · split
    · exact inner_judgeNoRoom s r q
    · split
      · exact Inner.refl r s
      · exact (inner_takeHeader s r _ _).trans (inner_acceptWords _ r _ _)

theorem inner_judgeBurst (s : State) (r : RingId) (q : PutReq) (ws : List Word) :
    Inner r s (s.judgeBurst r q ws).1 := by
  unfold State.judgeBurst
  dsimp only
  split
  · split
    · exact inner_refusePut s r q _
    · exact inner_judgeHeaderPassed s r q ws
  · split
    · exact inner_refusePut s r q _
    · exact inner_acceptWords s r q ws

theorem inner_judgeAbandon (s : State) (r : RingId) (q : PutReq) :
    Inner r s (s.judgeAbandon r q) := by
  unfold State.judgeAbandon
  dsimp only
  split
  · exact ((inner_modPut s r _).trans (inner_recordPut _ r _ _ _)).trans (inner_respond _ r _ _ _ _)
  · exact inner_respond s r _ _ _ _

theorem inner_judgePut (s : State) (r : RingId) (q : PutReq) : Inner r s (s.judgePut r q).1 := by
  unfold State.judgePut
  split
  · exact inner_judgeBurst s r q _
  · exact inner_judgeAbandon s r q

theorem inner_putLoop (n : Nat) (s : State) (r : RingId) : Inner r s (State.putLoop n s r) := by
  induction n generalizing s with
  | zero => exact Inner.refl r s
  | succ n ih =>
    unfold State.putLoop
    dsimp only
    split
    · exact Inner.refl r s
    · rename_i q _ _
      have h := inner_judgePut s r q
      split
      · exact Inner.refl r s
      · split
        · rename_i hq; rw [hq] at h; exact h.trans (inner_modPut _ r _)
        · rename_i hq; rw [hq] at h; exact (h.trans (inner_modPut _ r _)).trans (ih _)

theorem inner_judgePutQueue (s : State) (r : RingId) : Inner r s (s.judgePutQueue r) :=
  (inner_modPut s r _).trans (inner_putLoop _ _ r)

theorem inner_deliverPut (s : State) (r : RingId) (q : PutReq) : Inner r s (s.deliverPut r q) := by
  unfold State.deliverPut
  dsimp only
  split
  · exact inner_refusePut s r q _
  · split
    · exact (inner_modPut s r _).trans (inner_judgePutQueue _ r)
    · exact inner_modPut s r _

theorem inner_refuseParked (s : State) (r : RingId) (c : Cause) : Inner r s (s.refuseParked r c) := by
  unfold State.refuseParked
  split
  · exact Inner.refl r s
  · exact ((inner_refusePut s r _ c).trans (inner_modPut _ r _)).trans (inner_judgePutQueue _ r)

theorem inner_roomAppears (s : State) (r : RingId) : Inner r s (s.roomAppears r) := by
  unfold State.roomAppears
  dsimp only
  split
  · exact inner_judgePutQueue s r
  · exact Inner.refl r s

/-! ## The Take Engine -/

theorem inner_refuseTake (s : State) (r : RingId) (q : TakeReq) (c : Cause) :
    Inner r s (s.refuseTake r q c) := (inner_recordTake s r _ _ _).trans (inner_respondError _ r _ _)

theorem inner_releaseTake (s : State) (r : RingId) : Inner r s (s.releaseTake r) :=
  (inner_clearTake s r).trans (inner_roomAppears _ r)

theorem inner_startTake (s : State) (r : RingId) (p : Nat) (replay : Bool) :
    Inner r s (s.startTake r p replay) := by
  unfold State.startTake
  dsimp only
  split
  · exact (inner_modTake s r _).trans (inner_cadenceStart _ r)
  · exact ((inner_modTake s r _).trans (inner_cadenceStart _ r)).trans (inner_surveyTakeStart _ r _ _)

theorem inner_takeHead (s : State) (r : RingId) : Inner r s (s.takeHead r) :=
  ((inner_modRing s r _ (kept_departN _ 1) rfl).trans (inner_startTake _ r _ _)).trans
    (inner_rearmAge _ r)

theorem inner_replay (s : State) (r : RingId) : Inner r s (s.replay r) :=
  ((inner_startTake s r _ true).trans (inner_raise _ r _)).trans (inner_bump _ r _ 1)

theorem inner_handRead (s : State) (r : RingId) (q : TakeReq) (k n : Nat) (u : Bool) :
    Inner r s (s.handRead r q k n u) :=
  (inner_modTake s r _).trans (inner_handDown _ r _ (by simp [Ring.takeIssue, Owner.ofRing]))

theorem inner_serveRead (s : State) (r : RingId) (q : TakeReq) : Inner r s (s.serveRead r q) := by
  unfold State.serveRead
  dsimp only
  split
  · exact inner_respondFill s r _ _ _
  · exact inner_handRead s r q _ _ _

theorem inner_judgeChecked (s : State) (r : RingId) (q : TakeReq) :
    Inner r s (s.judgeChecked r q).1 := by
  unfold State.judgeChecked
  dsimp only
  split
  · exact Inner.refl r s
  · split
    · exact (inner_modTake s r _).trans (inner_serveRead _ r q)
    · split
      · exact inner_serveRead s r q
      · exact inner_refuseTake s r q _

theorem inner_judgePresent (s : State) (r : RingId) (q : TakeReq) :
    Inner r s (s.judgePresent r q).1 := by
  unfold State.judgePresent
  split
  · exact inner_judgeChecked s r q
  · exact inner_serveRead s r q

theorem inner_setPaced (s : State) (r : RingId) (p : PacedState) : Inner r s (s.setPaced r p) :=
  inner_modRing s r _ (Kept.of_same rfl rfl rfl rfl rfl rfl rfl) rfl

theorem inner_judgePaced (s : State) (r : RingId) (q : TakeReq) : Inner r s (s.judgePaced r q).1 := by
  unfold State.judgePaced
  split
  · exact ((inner_setPaced s r _).trans (inner_takeHead _ r)).trans (inner_serveRead _ r q)
  · exact ((inner_setPaced s r _).trans (inner_replay _ r)).trans (inner_serveRead _ r q)
  · exact inner_respondFill s r _ _ _

theorem inner_judgeMessage (s : State) (r : RingId) (q : TakeReq) :
    Inner r s (s.judgeMessage r q).1 := by
  unfold State.judgeMessage
  dsimp only
  split
  · exact (inner_takeHead s r).trans (inner_serveRead _ r q)
  · split
    · exact Inner.refl r s
    · exact inner_respondFill s r _ _ _

theorem inner_judgeAbsent (s : State) (r : RingId) (q : TakeReq) :
    Inner r s (s.judgeAbsent r q).1 := by
  unfold State.judgeAbsent
  split
  · exact inner_respondFill s r _ _ _
  · split
    · exact inner_judgeMessage s r q
    · exact inner_judgePaced s r q

theorem inner_judgeRelease (s : State) (r : RingId) (q : TakeReq) :
    Inner r s (s.judgeRelease r q) := by
  unfold State.judgeRelease
  split
  · exact (inner_handRead s r q _ _ _).trans (inner_releaseTake _ r)
  · exact inner_respondFill s r _ _ _

theorem inner_judgeTake (s : State) (r : RingId) (q : TakeReq) : Inner r s (s.judgeTake r q).1 := by
  unfold State.judgeTake
  split
  · exact inner_judgeRelease s r q
  · split
    · exact inner_judgePresent s r q
    · exact inner_judgeAbsent s r q

theorem inner_takeLoop (n : Nat) (s : State) (r : RingId) : Inner r s (State.takeLoop n s r) := by
  induction n generalizing s with
  | zero => exact Inner.refl r s
  | succ n ih =>
    unfold State.takeLoop
    split
    · exact Inner.refl r s
    · rename_i q _ _
      have h := inner_judgeTake s r q
      split
      · rename_i hq; rw [hq] at h; exact h.trans (inner_modTake _ r _)
      · rename_i hq; rw [hq] at h; exact (h.trans (inner_modTake _ r _)).trans (ih _)

theorem inner_judgeTakeQueue (s : State) (r : RingId) : Inner r s (s.judgeTakeQueue r) :=
  (inner_modTake s r _).trans (inner_takeLoop _ _ r)

theorem inner_judgeTakeWaiting (s : State) (r : RingId) : Inner r s (s.judgeTakeWaiting r) := by
  unfold State.judgeTakeWaiting
  dsimp only
  split
  · exact inner_judgeTakeQueue s r
  · exact Inner.refl r s

theorem inner_deliverTake (s : State) (r : RingId) (q : TakeReq) : Inner r s (s.deliverTake r q) := by
  unfold State.deliverTake
  dsimp only
  split
  · exact inner_refuseTake s r q _
  · split
    · exact (inner_modTake s r _).trans (inner_judgeTakeQueue _ r)
    · exact inner_modTake s r _

theorem inner_startParkedTake (s : State) (r : RingId) : Inner r s (s.startParkedTake r) := by
  unfold State.startParkedTake
  dsimp only
  split
  · exact inner_judgeTakeQueue s r
  · exact Inner.refl r s

theorem inner_answerTrailer (s : State) (r : RingId) (e : ReadEntry) (data : List Word) :
    Inner r s (s.answerTrailer r e data) := by
  unfold State.answerTrailer
  dsimp only
  split
  · exact (inner_respond s r _ _ _ _).trans (inner_releaseTake _ r)
  · exact ((inner_recordTake s r _ _ _).trans (inner_respondError _ r _ _)).trans
      (inner_releaseTake _ r)

theorem inner_answerChecked (s : State) (r : RingId) (e : ReadEntry) (data : List Word) :
    Inner r s (s.answerChecked r e data) := (inner_modTake s r _).trans (inner_respond _ r _ _ _ _)

theorem inner_takeOk (s : State) (r : RingId) (e : ReadEntry) (data : List Word) :
    Inner r s (s.takeOk r e data) := by
  unfold State.takeOk
  dsimp only
  split
  · exact inner_respond s r _ _ _ _
  · split
    · split
      · exact inner_answerTrailer s r e data
      · exact inner_answerChecked s r e data
    · split
      · exact (inner_respond s r _ _ _ _).trans (inner_releaseTake _ r)
      · exact inner_respond s r _ _ _ _

/-- The record part has as many words as were asked for, whatever the response carried. -/
@[simp] theorem receivedWords_length (s : State) (n : Nat) (data : List Word) :
    (s.receivedWords n data).length = n := by
  simp [State.receivedWords]
  omega

/-- A response with the words asked for is read as it is: no free word enters. -/
theorem receivedWords_eq_of_length (s : State) (data : List Word) :
    s.receivedWords data.length data = data := by
  simp [State.receivedWords]

theorem inner_countFree (s : State) (r : RingId) (n : Nat) (data : List Word) :
    Inner r s (s.countFree n data) :=
  inner_of_rings rfl rfl rfl rfl rfl rfl rfl rfl rfl rfl rfl rfl rfl BitVec.and_self
    (List.Sublist.refl _) (List.prefix_refl _) ⟨[], (List.append_nil _).symm, by simp⟩ rfl
    (line_same rfl rfl rfl rfl rfl)

theorem inner_takeError (s : State) (r : RingId) (e : ReadEntry) : Inner r s (s.takeError r e) :=
  (inner_recordTake s r _ _ _).trans (inner_respondError _ r _ _)

theorem inner_takeOutcome (s : State) (r : RingId) (q : Requester) (u : UTag) (status : Status)
    (data : List Word) : Inner r s (s.takeOutcome r q u status data) := by
  unfold State.takeOutcome
  split
  · exact Inner.refl r s
  · dsimp only
    cases status
    · exact (((inner_modTake s r _).trans (inner_countFree _ r _ _)).trans (inner_takeOk _ r _ _)).trans
        (inner_judgeTakeWaiting _ r)
    · exact ((inner_modTake s r _).trans (inner_takeError _ r _)).trans (inner_judgeTakeWaiting _ r)

/-! ## Publish and commit -/

theorem inner_enterSet (s : State) (r : RingId) (gap : Bool) : Inner r s (s.enterSet r gap) := by
  unfold State.enterSet
  dsimp only
  exact (inner_writeStamp s r _ _).trans (inner_modRing _ r _ (Kept.of_same rfl rfl rfl rfl rfl rfl rfl) rfl)

theorem inner_publishAge (s : State) (r : RingId) (h : Bool) : Inner r s (s.publishAge r h) := by
  unfold State.publishAge
  split
  · exact inner_rearmAge s r
  · exact Inner.refl r s

theorem inner_publish (s : State) (r : RingId) (gap : Bool) : Inner r s (s.publish r gap) :=
  (((((inner_enterSet s r gap).trans (inner_dropSlip _ r)).trans (inner_publishAge _ r _)).trans
    (inner_surveyPublish _ r _)).trans (inner_startParkedTake _ r)).trans (inner_bump _ r _ 1)

theorem inner_answerU (s : State) (r : RingId) (u : Option UReq) (status : Status) :
    Inner r s (s.answerU u status) := by
  cases u
  · exact Inner.refl r s
  · exact inner_respond s r _ _ _ _

theorem inner_recordU (s : State) (r : RingId) (c : Cause) (u : Option UReq) :
    Inner r s (s.recordU r c u) := by
  cases u
  · exact Inner.refl r s
  · exact inner_recordPut s r _ _ _

theorem inner_checkVerdict (s : State) (r : RingId) (u : Option UReq) :
    Inner r s (s.checkVerdict r u) :=
  ((inner_recordU s r _ u).trans (inner_alignCheckReport _ r)).trans (inner_answerU _ r u _)

theorem inner_alignVerdict (s : State) (r : RingId) (u : Option UReq) :
    Inner r s (s.alignVerdict r u) := by
  unfold State.alignVerdict
  dsimp only
  split
  · exact (((inner_publish s r false).trans (inner_modAlign _ r _)).trans
      (inner_raiseOpt _ r _)).trans (inner_answerU _ r u _)
  · exact (((((inner_publish s r true).trans (inner_raise _ r _)).trans (inner_bump _ r _ 1)).trans
      (inner_modAlign _ r _)).trans (inner_raiseOpt _ r _)).trans (inner_answerU _ r u _)
  · exact (((inner_bump s r _ 1).trans (inner_modAlign _ r _)).trans (inner_raiseOpt _ r _)).trans
      (inner_answerU _ r u _)

theorem inner_verdicts (s : State) (r : RingId) (u : Option UReq) : Inner r s (s.verdicts r u) := by
  unfold State.verdicts
  dsimp only
  split
  · exact inner_answerU s r u _
  · split
    · exact inner_checkVerdict s r u
    · exact inner_alignVerdict s r u

theorem inner_abortedCompletion (s : State) (r : RingId) (u : Option UReq) :
    Inner r s (s.abortedCompletion r u) := (inner_recordU s r _ u).trans (inner_answerU _ r u _)

theorem inner_commitCompletion (s : State) (r : RingId) : Inner r s (s.commitCompletion r) := by
  unfold State.commitCompletion
  dsimp only
  split
  · exact ((inner_abortedCompletion s r _).trans (inner_modPut _ r _)).trans (inner_judgePutQueue _ r)
  · exact ((inner_verdicts s r _).trans (inner_modPut _ r _)).trans (inner_judgePutQueue _ r)

theorem inner_afterOutcome (s : State) (r : RingId) (c : Bool) : Inner r s (s.afterOutcome r c) := by
  unfold State.afterOutcome
  dsimp only
  split
  · split
    · exact inner_commitCompletion s r
    · exact Inner.refl r s
  · split
    · exact inner_judgePutQueue s r
    · exact Inner.refl r s

theorem inner_ite {r : RingId} {c : Prop} [Decidable c] {s t u : State} (a : Inner r s t)
    (b : Inner r s u) : Inner r s (if c then t else u) := by
  split
  · exact a
  · exact b

theorem inner_putOutcome (s : State) (r : RingId) (q : Requester) (u : UTag) (g : BitVec 8)
    (status : Status) : Inner r s (s.putOutcome r q u g status) := by
  unfold State.putOutcome
  dsimp only
  split
  · exact Inner.refl r s
  · exact (((inner_modPut s r _).trans
      (inner_ite (inner_recordPut _ r _ _ _) (Inner.refl r _))).trans
      (inner_ite (Inner.refl r _) (inner_respond _ r _ _ _ _))).trans (inner_afterOutcome _ r _)

/-! ## Ring commands that keep the ring state -/

theorem inner_abortPutQueue (s : State) (r : RingId) : Inner r s (s.abortPutQueue r) := by
  have h : ∀ (l : List PutReq) (t : State),
      Inner r t (l.foldl (fun s q => s.refusePut r q .aborting) t) := by
    intro l
    induction l with
    | nil => exact fun t => Inner.refl r t
    | cons q l ih => exact fun t => (inner_refusePut t r q _).trans (ih _)
  unfold State.abortPutQueue
  dsimp only
  exact (h _ s).trans (inner_modPut _ r _)

theorem inner_abortTakeQueue (s : State) (r : RingId) : Inner r s (s.abortTakeQueue r) := by
  have h : ∀ (l : List TakeReq) (t : State),
      Inner r t (l.foldl (fun s q => s.refuseTake r q .aborting) t) := by
    intro l
    induction l with
    | nil => exact fun t => Inner.refl r t
    | cons q l ih => exact fun t => (inner_refuseTake t r q _).trans (ih _)
  unfold State.abortTakeQueue
  dsimp only
  exact (h _ s).trans (inner_modTake _ r _)

theorem inner_flushRing (s : State) (r : RingId) : Inner r s (s.flushRing r) :=
  ((inner_modRing s r _ (Kept.of_same rfl rfl rfl rfl rfl rfl rfl) rfl).trans
    (inner_revokeTake _ r)).trans (inner_roomAppears _ r)

/-! ## Events of the rings' own timers -/

theorem inner_fillParked (s : State) (r : RingId) : Inner r s (s.fillParked r) := by
  unfold State.fillParked
  split
  · exact Inner.refl r s
  · exact ((inner_respondFill s r _ _ _).trans (inner_modTake _ r _)).trans
      (inner_judgeTakeQueue _ r)

theorem inner_searchTimerExpiry (s : State) (r : RingId) : Inner r s (s.searchTimerExpiry r) := by
  unfold State.searchTimerExpiry
  dsimp only
  split
  · exact inner_alignBypass s r
  · exact Inner.refl r s

theorem inner_refuseAbsent (s : State) (r : RingId) : Inner r s (s.refuseAbsent r) := by
  unfold State.refuseAbsent
  dsimp only
  split
  · exact inner_refuseParked s r _
  · exact Inner.refl r s

end Sys2Proof.Laws
end

