-- ==== Sys2Proof/Laws/Commands.lean ====
section
/-! SUPPORT. What a ring command and the entry to IDLE can do: the relation Moved, which also lets the
ring state and the stamp blocks of the one ring change. -/

namespace Sys2Proof.Laws

open Sys2Proof.Machine

/-- What no event of a ring but SNAPSHOT changes in its ring. -/
structure Stays (x y : Ring) : Prop where
  config : y.config = x.config
  enables : y.events.enables = x.events.enables
  bank : y.events.bank = x.events.bank
  flags : x.events.flags &&& y.events.flags = x.events.flags
  counters : ∀ i : Fin 15, x.events.counters[i].toNat ≤ y.events.counters[i].toNat

theorem Stays.refl (x : Ring) : Stays x x := ⟨rfl, rfl, rfl, BitVec.and_self, fun _ => le_rfl⟩

theorem Stays.trans {x y z : Ring} (a : Stays x y) (b : Stays y z) : Stays x z where
  config := b.config.trans a.config
  enables := b.enables.trans a.enables
  bank := b.bank.trans a.bank
  flags := by
    have h : (x.events.flags &&& y.events.flags) &&& z.events.flags = x.events.flags := by
      rw [BitVec.and_assoc, b.flags, a.flags]
    rwa [a.flags] at h
  counters := fun i => (a.counters i).trans (b.counters i)

theorem Kept.stays {x y : Ring} (h : Kept x y) : Stays x y :=
  ⟨h.config, h.enables, h.bank, h.flags, h.counters⟩

/-- What an event of ring `r` leaves of the whole state, its change of ring state included. -/
structure Moved (r : RingId) (s t : State) : Prop where
  resetN : t.resetN = s.resetN
  syncLevel : t.syncLevel = s.syncLevel
  timebase : t.timebase = s.timebase
  tags : t.tags = s.tags
  downTimeout : t.downTimeout = s.downTimeout
  globalEnables : t.globalEnables = s.globalEnables
  period : t.period = s.period
  coalTimer : t.coalTimer = s.coalTimer
  port : t.port = s.port
  downRequests : t.downRequests = s.downRequests
  pending : t.pending = s.pending
  setup : t.survey.setup = s.survey.setup
  ring : Stays (s.ring r) (t.ring r)
  others : ∀ q, q ≠ r → t.ring q = s.ring q
  globalFlags : s.globalFlags &&& t.globalFlags = s.globalFlags
  outstanding : t.outstanding.Sublist s.outstanding
  upResponses : s.upResponses <+: t.upResponses
  issues : ∃ l, t.issueQueue = s.issueQueue ++ l ∧ ∀ i ∈ l, i.owner.ofRing r = true
  stampsWf : SparseWf Stamp.zero s.stamps → SparseWf Stamp.zero t.stamps
  line : LineSound s → LineSound t

theorem Inner.moved {r : RingId} {s t : State} (h : Inner r s t) : Moved r s t where
  resetN := h.resetN
  syncLevel := h.syncLevel
  timebase := h.timebase
  tags := h.tags
  downTimeout := h.downTimeout
  globalEnables := h.globalEnables
  period := h.period
  coalTimer := h.coalTimer
  port := h.port
  downRequests := h.downRequests
  pending := h.pending
  setup := h.setup
  ring := h.ring.stays
  others := h.others
  globalFlags := h.globalFlags
  outstanding := h.outstanding
  upResponses := h.upResponses
  issues := h.issues
  stampsWf := h.stampsWf
  line := h.line

theorem Moved.refl (r : RingId) (s : State) : Moved r s s := (Inner.refl r s).moved

theorem Moved.trans {r : RingId} {s t u : State} (a : Moved r s t) (b : Moved r t u) :
    Moved r s u where
  resetN := b.resetN.trans a.resetN
  syncLevel := b.syncLevel.trans a.syncLevel
  timebase := b.timebase.trans a.timebase
  tags := b.tags.trans a.tags
  downTimeout := b.downTimeout.trans a.downTimeout
  globalEnables := b.globalEnables.trans a.globalEnables
  period := b.period.trans a.period
  coalTimer := b.coalTimer.trans a.coalTimer
  port := b.port.trans a.port
  downRequests := b.downRequests.trans a.downRequests
  pending := b.pending.trans a.pending
  setup := b.setup.trans a.setup
  ring := a.ring.trans b.ring
  others := fun q h => (b.others q h).trans (a.others q h)
  globalFlags := by
    have h : (s.globalFlags &&& t.globalFlags) &&& u.globalFlags = s.globalFlags := by
      rw [BitVec.and_assoc, b.globalFlags, a.globalFlags]
    rwa [a.globalFlags] at h
  outstanding := b.outstanding.trans a.outstanding
  upResponses := a.upResponses.trans b.upResponses
  issues := by
    obtain ⟨l, hl, hl'⟩ := a.issues
    obtain ⟨m, hm, hm'⟩ := b.issues
    refine ⟨l ++ m, by rw [hm, hl, List.append_assoc], fun i hi => ?_⟩
    rcases List.mem_append.1 hi with hi | hi
    · exact hl' i hi
    · exact hm' i hi
  stampsWf := fun h => b.stampsWf (a.stampsWf h)
  line := fun h => b.line (a.line h)

/-- An update of the ring that leaves its configuration and events. -/
theorem moved_modRing (s : State) (r : RingId) (f : Ring → Ring)
    (config : (f (s.ring r)).config = (s.ring r).config)
    (events : (f (s.ring r)).events = (s.ring r).events) : Moved r s (s.modRing r f) where
  resetN := rfl
  syncLevel := rfl
  timebase := rfl
  tags := rfl
  downTimeout := rfl
  globalEnables := rfl
  period := rfl
  coalTimer := rfl
  port := rfl
  downRequests := rfl
  pending := rfl
  setup := rfl
  ring := by
    rw [ring_modRing_self]
    exact ⟨config, by rw [events], by rw [events], by rw [events]; exact BitVec.and_self,
      fun i => by rw [events]⟩
  others := fun q hq => ring_modRing_other s f (Ne.symm hq)
  globalFlags := BitVec.and_self
  outstanding := List.Sublist.refl _
  upResponses := List.prefix_refl _
  issues := ⟨[], (List.append_nil _).symm, by simp⟩
  stampsWf := fun h => h
  line := line_modRing s r f events

/-! ## Entry to IDLE -/

theorem moved_enterIdle (s : State) (r : RingId) : Moved r s (s.enterIdle r) :=
  ((moved_modRing s r _ rfl rfl).trans (inner_surveySourceLoss _ r).moved).trans
    (inner_raise _ r _).moved

theorem moved_settle (s : State) (r : RingId) : Moved r s (s.settle r) := by
  unfold State.settle
  split
  · exact moved_enterIdle s r
  · exact Moved.refl r s

/-! ## Ring commands -/

theorem moved_startRing (s : State) (r : RingId) : Moved r s (s.startRing r) where
  resetN := rfl
  syncLevel := rfl
  timebase := rfl
  tags := rfl
  downTimeout := rfl
  globalEnables := rfl
  period := rfl
  coalTimer := rfl
  port := rfl
  downRequests := rfl
  pending := rfl
  setup := rfl
  ring := by
    unfold State.startRing
    dsimp only
    rw [ring_modRing_self]
    exact ⟨rfl, rfl, rfl, BitVec.and_self, fun _ => le_rfl⟩
  others := fun q hq => by
    unfold State.startRing
    dsimp only
    rw [ring_modRing_other _ _ (Ne.symm hq)]
    rfl
  globalFlags := BitVec.and_self
  outstanding := List.Sublist.refl _
  upResponses := List.prefix_refl _
  issues := ⟨[], (List.append_nil _).symm, by simp⟩
  stampsWf := fun h => by
    unfold State.startRing
    dsimp only
    rw [stamps_modRing]
    exact sparseClear_wf Stamp.zero (fun i => decide (i / Config.blockEntries ∈ s.blocksFor r)) h
  line := fun h => by
    unfold State.startRing
    exact line_modRing _ r _ rfl (line_same rfl rfl rfl rfl rfl h)

theorem moved_stopRing (s : State) (r : RingId) : Moved r s (s.stopRing r) := by
  unfold State.stopRing State.refuseParkedDraining
  refine Moved.trans ?_ (moved_settle _ r)
  split
  · exact (moved_modRing s r _ rfl rfl).trans (inner_refuseParked _ r _).moved
  · exact moved_modRing s r _ rfl rfl

theorem moved_abortEffects (s : State) (r : RingId) : Moved r s (s.abortEffects r) := by
  unfold State.abortEffects
  have a := moved_modRing s r (fun x => { x with state := .aborting }) rfl rfl
  generalize s.modRing r (fun x => { x with state := .aborting }) = t at a ⊢
  have b := ((inner_abortPutQueue t r).trans (inner_abortTakeQueue _ r)).moved
  dsimp only
  generalize (t.abortPutQueue r).abortTakeQueue r = u at b ⊢
  have c := ((inner_modPut u r PutEngine.abortTear).trans (inner_revokeTake _ r)).moved
  generalize (u.modPut r PutEngine.abortTear).revokeTake r = v at c ⊢
  have d := moved_modRing v r Ring.abortSet rfl rfl
  exact (((a.trans b).trans c).trans d).trans (inner_surveySourceLoss _ r).moved

theorem moved_abortRing (s : State) (r : RingId) : Moved r s (s.abortRing r) :=
  (moved_abortEffects s r).trans (moved_settle _ r)

/-- Every ring command but SNAPSHOT, accepted or refused. -/
theorem moved_ringCommand (s : State) (r : RingId) (c : RingCommand) (h : c ≠ .snapshot) :
    Moved r s (s.ringCommand r c) := by
  unfold State.ringCommand
  dsimp only
  refine Moved.trans ?_ (moved_modRing _ r _ rfl rfl)
  split
  · cases c
    · exact moved_startRing s r
    · exact moved_stopRing s r
    · exact moved_abortRing s r
    · exact (inner_flushRing s r).moved
    · exact absurd rfl h
  · exact Moved.refl r s

/-! ## Timers that may bring the entry to IDLE -/

theorem moved_putParkExpiry (s : State) (r : RingId) : Moved r s (s.putParkExpiry r) := by
  unfold State.putParkExpiry
  split
  · exact (inner_refuseParked s r _).moved.trans (moved_settle _ r)
  · exact Moved.refl r s

theorem moved_lateExpiry (s : State) (r : RingId) : Moved r s (s.lateExpiry r) := by
  unfold State.lateExpiry
  dsimp only
  split
  · split
    · exact ((inner_cadenceLate s r).trans (inner_refuseAbsent _ r)).moved.trans (moved_settle _ r)
    · exact (inner_cadenceLate s r).moved
  · exact Moved.refl r s

theorem moved_takeParkExpiry (s : State) (r : RingId) : Moved r s (s.takeParkExpiry r) := by
  unfold State.takeParkExpiry
  split
  · exact (inner_fillParked s r).moved.trans (moved_settle _ r)
  · exact Moved.refl r s

theorem moved_ageExpiry (s : State) (r : RingId) : Moved r s (s.ageExpiry r) := by
  unfold State.ageExpiry
  dsimp only
  split
  · exact ((inner_ageOutHead s r).trans (inner_rearmAge _ r)).moved.trans (moved_settle _ r)
  · exact Moved.refl r s

theorem moved_secondBoundary (s : State) (r : RingId) : Moved r s (s.secondBoundary r) := by
  unfold State.secondBoundary
  split
  · exact Moved.refl r s
  · split
    · exact moved_modRing s r _ rfl rfl
    · exact Moved.refl r s

/-! ## Requests and outcomes of one ring -/

theorem moved_deliverPut (s : State) (r : RingId) (q : PutReq) :
    Moved r s ((s.deliverPut r q).settle r) := (inner_deliverPut s r q).moved.trans (moved_settle _ r)

theorem moved_admitPut (s : State) (r : RingId) (q : UpRequest) (k : Nat) :
    Moved r s (s.admitPut r q k) := by
  unfold State.admitPut
  dsimp only
  split
  · exact (inner_respond s r _ _ _ _).moved
  · exact moved_deliverPut s r _

theorem moved_putRequest (s : State) (r : RingId) (q : UpRequest) (k : Nat) :
    Moved r s (s.putRequest r q k) := by
  unfold State.putRequest
  split
  · exact ((inner_recordPut s r _ _ _).trans (inner_respondError _ r _ _)).moved
  · exact moved_admitPut s r q k

theorem moved_admitTake (s : State) (r : RingId) (q : UpRequest) (k : Nat) :
    Moved r s (s.admitTake r q k) := by
  unfold State.admitTake
  dsimp only
  split
  · exact (inner_respond s r _ _ _ _).moved
  · split
    · exact (inner_respondFill s r _ _ _).moved
    · exact (inner_deliverTake s r _).moved.trans (moved_settle _ r)

theorem moved_takeRequest (s : State) (r : RingId) (q : UpRequest) (k : Nat) :
    Moved r s (s.takeRequest r q k) := by
  unfold State.takeRequest
  split
  · exact ((inner_recordTake s r _ _ _).trans (inner_respondError _ r _ _)).moved
  · exact moved_admitTake s r q k

/-- The outcome of a downstream request that a ring owns. -/
theorem moved_deliver (s : State) (r : RingId) (o : Owner) (q : Requester) (u : UTag) (g : BitVec 8)
    (status : Status) (data : List Word) (h : o.ofRing r = true) :
    Moved r s (s.deliver o q u g status data) := by
  unfold State.deliver
  cases o with
  | pass => simp [Owner.ofRing] at h
  | put p =>
    have : p = r := by simpa [Owner.ofRing] using h
    subst this
    exact (inner_putOutcome s p q u g status).moved.trans (moved_settle _ p)
  | take p =>
    have : p = r := by simpa [Owner.ofRing] using h
    subst this
    exact (inner_takeOutcome s p q u status data).moved.trans (moved_settle _ p)

end Sys2Proof.Laws
end

