-- ==== Sys2Proof/Tests/Slice0.lean ====
section
/-! SUPPORT. Tests on small states: the ill-formed terms that the checks refuse, the values that the spec
works out, one step of each family, and for each statement with hypotheses a state and operands that meet
them, clause by clause. An equation by which a statement names a value is met by that value and is not
repeated here. -/

namespace Sys2Proof.Tests

open Sys2Proof Sys2Proof.Machine

set_option Elab.async false

/-! ## Small states -/

/-- A write of whole words by requester 1 under tag 2. -/
def wr (addr : Word) (data : List Word) : UpRequest :=
  ⟨.write, 1, 2, addr, data.length, data, List.replicate data.length 0xF⟩

/-- A read by requester 1 under tag 2. -/
def rd (addr : Word) (count : Nat) : UpRequest := ⟨.read, 1, 2, addr, count, [], []⟩

/-- S = 4, N = 4; put aperture 0x1000, take aperture 0x2000, guarded storage 0x10000. -/
def cfg : RingConfig :=
  { RingConfig.reset with
    putBase := 0x1000, takeBase := 0x2000, storageBase := 0x10000, slotCount := 4, guard := true }

/-- The same as a PACED ring, H = 2, C = 1. -/
def pacedCfg : RingConfig := { cfg with kind := .paced, highMark := 2, centre := 1 }

/-- A RUNNING ring. -/
def run : Ring :=
  { Ring.reset with config := cfg, state := .running, blocks := [0], secondTimer := some ⟨0, 1000000⟩ }

/-- A RUNNING PACED ring. -/
def paced : Ring := { run with config := pacedCfg, paced := .priming }

/-- The reset state with ring 0 at `x`. -/
def at0 (x : Ring) : State := { State.reset with rings := State.reset.rings.set 0 x }

/-- A ring whose put engine is FILLING a slot of L = 2 at the cursor 1. -/
def filling : Ring :=
  { run with
    put :=
      { PutEngine.reset with
        phase := .filling, generation := 1, length := 2, lastUsed := 2, cursor := 1, outstanding := 1
        writes := [⟨1, 0, 0, 1⟩] } }

/-- A take of position 3 with U = 2. -/
def taking : TakeRecord := ⟨true, 3, 2, 2, 1, false, 0, 0, 0xFFFF⟩

/-- A parked header of requester 3, and a parked read. -/
def parkedPut (x : Ring) : Ring :=
  { x with put := { x.put with head := .parked ⟨0, 10⟩, hold := [⟨3, 0, 0, .words [0]⟩] } }

def parkedTake (x : Ring) : Ring :=
  { x with take := { x.take with head := .parked ⟨0, 10⟩, hold := [⟨3, 0, 0, 1, false⟩] } }

/-- What waits behind a parked header: its words, ABANDON, a header, and that header's words. -/
def behindPut : List PutReq :=
  [⟨3, 1, 1, .words [7, 8]⟩, ⟨3, 2, 4, .abandon⟩, ⟨4, 3, 0, .words [2]⟩, ⟨4, 4, 1, .words [9]⟩]

/-- A full ring with a header parked and that queue behind it. -/
def fullPut : Ring :=
  { run with
    occ := 4
    config := { cfg with parkTimeout := 10 }
    put := { run.put with head := .parked ⟨0, 10⟩, hold := ⟨3, 0, 0, .words [2]⟩ :: behindPut } }

/-- What waits behind a parked read: a read of offset 2, RELEASE, and two reads of offset 0. -/
def behindTake : List TakeReq :=
  [⟨3, 1, 2, 2, false⟩, ⟨3, 2, 4, 1, true⟩, ⟨4, 3, 0, 3, false⟩, ⟨4, 4, 0, 1, false⟩]

/-- An empty ring with a read parked and that queue behind it. -/
def emptyTake : Ring :=
  { run with
    config := { cfg with parkTimeout := 10 }
    take := { run.take with head := .parked ⟨0, 10⟩, hold := ⟨3, 0, 0, 1, false⟩ :: behindTake } }

/-- The state with tag 5 BUSY for the owner, requester 1 and tag 0, at generation 1. -/
def busy (s : State) (o : Owner) : State := s.setTag 5 (.busy o 1 0 1 ⟨0, 1000⟩)

/-- The state at Timebase value `n`. -/
def atTime (n : Time) (s : State) : State := { s with timebase := n }

/-- The state with the port in a transaction at page `p` and subaddress `sub`. -/
def atPort (t : Transaction) (p : Fin 18) (sub : Byte) (bytes : Option Staging) (s : State) : State :=
  { s with port := { s.port with transaction := t, page := p, sub := sub, staging := bytes } }

/-- The state with the survey on ring 0 in state `v`. -/
def surveying (v : SurveyState) (t : Trigger) (s : State) : State :=
  { s with survey := { s.survey with state := v, setup := { s.survey.setup with trigger := t } } }

/-- A state whose only active ring is ring 0, a MESSAGE ring, has sound positions where that ring has. -/
theorem positionsSound_of_message (s : State)
    (active : (s.ring 0).state ≠ .idle ∧ (s.ring 0).config.kind = .message)
    (sound : (s.ring 0).t < (s.ring 0).config.slots ∧
      ((s.ring 0).put.slotOpen = true →
        (s.ring 0).put.position = ((s.ring 0).t + (s.ring 0).occ) % (s.ring 0).config.slots) ∧
      (s.ring 0).heldPositions ≤ (s.ring 0).config.slots ∧ (s.ring 0).ageTimer = .none ∧
      ((s.ring 0).take.record.present = true → (s.ring 0).take.record.position =
        ((s.ring 0).t + (s.ring 0).config.slots - 1) % (s.ring 0).config.slots))
    (idle : ∀ r : RingId, r ≠ 0 → (s.ring r).state = .idle ∧ (s.ring r).occ = 0 ∧
      (s.ring r).put.head = .clear ∧ (s.ring r).take.head = .clear ∧ s.downstreamClear r = true) :
    PositionsSound s := by
  intro r
  by_cases h : r = 0
  · subst h
    rw [if_neg active.1, Ring.positionsSound, active.2]
    exact sound
  · rw [if_pos (idle r h).1]
    exact (idle r h).2

/-- The state after a command that goes on. -/
def after (c : Instr) (s : State) : State :=
  match exec c s with
  | .next t => t
  | .fault _ => s
  | .refused _ => s

/-! ## The form of link messages -/

theorem test_illFormed_address : WellFormed (.upstreamRequest (rd 2 1)) = false := by decide

theorem test_illFormed_countZero : WellFormed (.upstreamRequest (rd 0 0)) = false := by decide

theorem test_illFormed_countSeventeen : WellFormed (.upstreamRequest (rd 0 17)) = false := by decide

theorem test_illFormed_data : WellFormed (.upstreamRequest { wr 0 [1] with data := [1, 2] }) = false := by
  decide

theorem test_illFormed_lanes : WellFormed (.upstreamRequest { wr 0 [1] with lanes := [] }) = false := by
  decide

theorem test_illFormed_readData : WellFormed (.upstreamRequest { rd 0 1 with data := [1] }) = false := by
  decide

theorem test_illFormed_readLanes :
    WellFormed (.upstreamRequest { rd 0 1 with lanes := [0xF] }) = false := by decide

theorem test_illFormed_response :
    WellFormed (.downstreamResponse 0 .ok (List.replicate 17 0)) = false ∧
      WellFormed (.downstreamResponse 0 .error [0]) = false := by decide

theorem test_wellFormed_bounds :
    WellFormed (.upstreamRequest (rd 0xFFFFFFFC 16)) = true ∧
      WellFormed (.upstreamRequest (wr 0 [7])) = true ∧
      WellFormed (.downstreamResponse 63 .ok (List.replicate 16 0)) = true := by decide

/-! ## Values that the spec works out -/

/-- Section 4.1.1. -/
theorem test_checkWord_worked : crcWords crcStart [0xA50C0101, 0x000003E8] = 0x6B86 := by
  decide +kernel

/-- R138. -/
theorem test_timer_wraps :
    (armTimer 0xFFFFFF00 1000).due 744 = true ∧ (armTimer 0xFFFFFF00 1000).due 743 = false := by
  decide +kernel

/-- R140. -/
theorem test_secondBoundary_wraps :
    (armTimer 4294000000 Config.secondLength).due 32704 = true ∧
      (armTimer 4294000000 Config.secondLength).due 32703 = false := by decide +kernel

/-- The status word of section 12.1 at 1750. -/
theorem test_statusWord_worked :
    ({ run with
        config := { cfg with sizeCode := 2, slotCount := 3 }, t := 2, occ := 2
        take := { TakeEngine.reset with record := taking } } : Ring).statusWord = 0x20801000 := by
  decide +kernel

/-- The drop slip of section 12.2, step 7: t from 2 to 5, occ 3, three counted. -/
theorem test_dropSlip_worked :
    let x := { paced with
      config := { pacedCfg with slotCount := 8, highMark := 5, centre := 3 }
      paced := .flowing, t := 2, occ := 5
      put :=
        { PutEngine.reset with
          phase := .committing, generation := 1, position := 7, lastUsed := 0, cursor := 1
          outstanding := 1, uRequest := some ⟨1, 0, 0⟩, writes := [⟨1, 0, 0, 1⟩] } }
    let y := (after (.downstreamResponse 5 .ok []) (busy (at0 x) (.put 0))).ring 0
    y.t = 5 ∧ y.occ = 3 ∧ y.events.counters[8] = 3 ∧ y.events.counters[0] = 1 ∧
      y.events.flags = 0x200 := by decide +kernel

/-! ## One step of each family -/

theorem test_step_takesTheFront :
    step { State.reset with pending := [.timebaseTick, .stopCondition] } =
      .next { State.reset with timebase := 1, pending := [.stopCondition] } := rfl

theorem test_start_accepted :
    let t := after (.start 0) (at0 { Ring.reset with config := cfg })
    (t.ring 0).state = .running ∧ (t.ring 0).blocks = [0] ∧ (t.ring 0).result = .accepted := by
  decide +kernel

theorem test_start_refusesOneSlot :
    ((after (.start 0) (at0 { Ring.reset with config := { cfg with slotCount := 1 } })).ring 0).result =
      .slotCount := by decide +kernel

theorem test_header_opens :
    let t := after (.upstreamRequest (wr 0x1000 [0x00010002, 7])) (at0 run)
    (t.ring 0).put.phase = .filling ∧ (t.ring 0).put.cursor = 2 ∧
      t.issueQueue.map Issue.addr = [0x10000] := by decide +kernel

theorem test_burst_commits :
    let t := after (.upstreamRequest (wr 0x1000 [0x00010001, 7])) (at0 run)
    (t.ring 0).put.phase = .committing ∧ (t.ring 0).put.uRequest = some ⟨1, 2, 0⟩ := by decide +kernel

theorem test_header_parks :
    ((after (.upstreamRequest (wr 0x1000 [0]))
      (at0 { run with occ := 4, config := { cfg with parkTimeout := 9 } })).ring 0).put.head =
      .parked ⟨0, 9⟩ := by decide +kernel

theorem test_take_starts :
    let t := after (.upstreamRequest (rd 0x2000 4)) (at0 { run with occ := 1 })
    (t.ring 0).take.record.present = true ∧ (t.ring 0).occ = 0 ∧ (t.ring 0).t = 1 ∧
      t.issueQueue.map Issue.count = [1] := by decide +kernel

theorem test_straddle_flag :
    (after (.upstreamRequest (rd 0xFFFFFFFC 2)) State.reset).globalFlags = 2 := by decide +kernel

theorem test_issue_lowestTag :
    let s := (State.reset.setTag 0 (.stale none)).handDown (passIssue (rd 0 1))
    (after .downstreamIssue s).tags[(1 : DTag)] = .busy .pass 1 2 0 ⟨0, 1000⟩ := by decide +kernel

theorem test_soft_reset_keepsConfig :
    ((after .softReset (at0 run)).ring 0).state = .idle ∧
      ((after .softReset (at0 run)).ring 0).config = cfg := by decide +kernel

theorem test_arm_samples :
    let t := after .surveyArm (atTime 7 (surveying .idle .timer (at0 run)))
    t.survey.state = .idle ∧ t.survey.results.count = 1 ∧ t.globalFlags = 16 := by decide +kernel

theorem test_period_byte :
    (after (.coalescingPeriodWrite 3) (atPort .write 0 0x0B none State.reset)).coalTimer =
      some ⟨0, 3000⟩ := by decide +kernel

/-- The record read in section 11.5: its first byte, with the latch. -/
theorem test_refusalRead_worked :
    let rec0 : RefusalRecord := ⟨some .orphanWord, 2, 1, 100000, true⟩
    let s := atPort .read 1 0x3F none (at0 { run with put := { run.put with refusal := rec0 } })
    (after (.fieldReadLatch true) s).port.reply = .sent 0x08 ∧
      sparseGet 0 (after (.fieldReadLatch true) s).port.latches (256 + 0x3F) = 0x08820001000186A0 := by
  decide +kernel

theorem test_address_59 :
    (after (.addressByte 0x59 false) (after (.powerOn 1) State.reset)).port.reply = .ack := by
  decide +kernel

/-! ## Hypotheses met: the queue, resets and time -/

theorem test_hypotheses_of_StepRunsTheFrontCommand : State.reset.pending = [] := rfl

theorem test_hypotheses_of_CommandsCompleteAndLeaveTheQueue :
    (rd 0 1).wellFormed = true ∧ (rd 1 1).wellFormed = false := by decide +kernel

theorem test_hypotheses_of_ResetLineEmptiesAndQuarantines :
    let s : State := (State.reset.setTag 63 (.stale none))
    let low := { s with resetN := false }
    low.resetN = false ∧ (∃ t, exec (.syncEdge true) low = .next t) ∧
      low.tags[(63 : DTag)] = .stale none ∧ s.tags[(63 : DTag)] ≠ .free ∧ s.tags[(0 : DTag)] = .free :=
  ⟨rfl, ⟨_, rfl⟩, by decide +kernel, by decide +kernel, by decide +kernel⟩

theorem test_hypotheses_of_SoftResetZeroesAndAborts :
    (at0 run).resetN = true ∧ ((at0 run).ring 0).state = .running ∧ (at0 run).noDownstream 0 ∧
      ¬(busy (at0 run) (.put 0)).noDownstream 0 ∧ ((at0 run).ring 15).state = .idle := by
  unfold State.noDownstream; decide +kernel

theorem test_hypotheses_of_TimeAdvancesAndTimersExpire :
    State.reset.resetN = true ∧ 4294967295 < 2 ^ 32 ∧ 4294967294 < 4294967295 := by decide

/-! ## Hypotheses met: the memory link -/

/-- Eight outstanding, 64 tags in use, and a pair held. -/
theorem test_hypotheses_of_WithheldAndClashingRequests :
    let full := { State.reset with outstanding := List.replicate 8 ⟨1, 0, .read, 1⟩ }
    let busyAll := { State.reset with tags := Vector.replicate 64 (.stale none) }
    let seven := { State.reset with outstanding := List.replicate 7 ⟨1, 2, .read, 1⟩ }
    (rd 0 1).wellFormed = true ∧ 8 ≤ full.outstandingOf 1 ∧ 64 ≤ busyAll.tagsInUse ∧
      seven.resetN = true ∧ seven.outstandingOf 1 < 8 ∧ seven.tagsInUse < 64 ∧
      seven.pairHeld 1 2 = true := by decide +kernel

theorem test_regionsSound_running : RegionsSound (at0 run) := by
  unfold RegionsSound; decide +kernel

/-- The words that end at the apertures' last bytes, the guarded storage, and a range with one word
below it. -/
theorem test_hypotheses_of_RequestsAreClassified :
    (∀ i < 2, (at0 run).liesIn (.put 0) (0x1018 + 4 * i)) ∧
      (∀ i < 2, (at0 run).liesIn (.take 0) (0x2018 + 4 * i)) ∧
      (∀ i < 1, (at0 run).liesIn (.guarded 0) (0x1003C + 4 * i)) ∧
      ((at0 run).liesIn (.put 0) (0xFFC + 4) ∧ ¬(at0 run).liesIn (.put 0) 0xFFC) ∧
      Region.decodedFor (.guarded 0) (wr 0x1003C [0]).dir ∧ Region.decodedFor (.put 0) .read := by
  unfold State.liesIn Region.decodedFor; decide +kernel

/-- No word of plain memory lies in a region. -/
theorem test_hypotheses_of_RequestsAreClassified_plain :
    ∀ i < 16, ∀ g : Region, g.decodedFor .read → ¬(at0 run).liesIn g (0x1020 + 4 * i) := by
  intro i hi g hd
  cases g with
  | put r => clear hd; simp only [State.liesIn]; revert i r; decide +kernel
  | take r => clear hd; simp only [State.liesIn]; revert i r; decide +kernel
  | guarded r => exact absurd hd (by simp [Region.decodedFor])

theorem test_hypotheses_of_StraddlesAndGuardedWritesAreRefused :
    0xFFFFFFFC < (rd 0xFFFFFFFC 2).addr.toNat + 4 * ((rd 0xFFFFFFFC 2).count - 1) ∧
      ((at0 run).takesIn (rd 0xFFC 2) ∧ (at0 run).classify (rd 0xFFC 2) = .straddle) ∧
      (at0 run).takesIn (wr 0x10000 [1]) ∧ (at0 run).classify (wr 0x10000 [1]) = .guardedWrite 0 := by
  unfold State.takesIn; decide +kernel

/-- The ring states and filters of the clauses, and the last offset that each row of table 1.4 ends at. -/
theorem test_hypotheses_of_ApertureChecksInOrder :
    ({ run with state := .aborting } : Ring).state = .aborting ∧ run.state ≠ .aborting ∧
      ((0 : Requester) ≠ (rd 0 1).requester ∧
        ({ cfg with producer := .only 0, consumer := .only 0 } : RingConfig).producer = .only 0) ∧
      (1 < (rd 0 2).count ∧ cfg.slotWords ≤ 3 + (rd 0 2).count - 1 ∧ cfg.producer = .any) ∧
      2 + (rd 0 2).count - 1 < cfg.slotWords ∧ (rd 0 1).dir = .read ∧ 5 = cfg.slotWords + 1 ∧
      (wr 0 [1]).dir = .write ∧ cfg.slotWords < 5 ∧ 4 = cfg.slotWords ∧ 3 < cfg.slotWords ∧
      (∀ m ∈ (wr 0 [1]).lanes, m = 0xF#4) ∧
      ∃ m ∈ ({ wr 0 [1] with lanes := [0xE] } : UpRequest).lanes, m ≠ 0xF#4 := by decide +kernel

theorem test_hypotheses_of_ApertureRefusalIsRecorded :
    ((at0 run).takesIn (rd 0x1000 1) ∧ (at0 run).classify (rd 0x1000 1) = .put 0 0 ∧
        run.putCheck (rd 0x1000 1) 0 = some .wrongDirection) ∧
      (at0 run).takesIn (wr 0x2000 [1]) ∧ (at0 run).classify (wr 0x2000 [1]) = .take 0 0 ∧
        run.takeCheckCause (wr 0x2000 [1]) 0 = some .wrongDirection := by
  unfold State.takesIn; decide +kernel

theorem test_hypotheses_of_PassTrafficGoesThrough :
    let s := { busy State.reset .pass with outstanding := [⟨1, 0, .read, 2⟩] }
    (State.reset.takesIn (rd 0 16) ∧ State.reset.classify (rd 0 16) = .pass) ∧
      s.resetN = true ∧ s.tags[(5 : DTag)] = .busy .pass 1 0 1 ⟨0, 1000⟩ ∧
      s.outstanding.find? (fun e => e.requester == 1 && e.tag == 0) = some ⟨1, 0, .read, 2⟩ ∧
      (⟨0, 1000⟩ : Timer).due (atTime 1000 s).timebase = true := by
  unfold State.takesIn; decide +kernel

theorem test_hypotheses_of_StatusAndUnusedOffsetReads :
    (at0 run).takesIn (rd 0x1014 1) ∧ (rd 0x1014 1).dir = .read ∧
      ((at0 run).classify (rd 0x1014 1) = .put 0 5 ∧ run.putCheck (rd 0x1014 1) 5 = none) ∧
      ((at0 run).classify (rd 0x2014 1) = .take 0 5 ∧ run.takeCheckCause (rd 0x2014 1) 5 = none) ∧
      (at0 run).takesIn (rd 0x201C 1) ∧ (at0 run).classify (rd 0x201C 1) = .take 0 7 ∧
      run.config.slotWords + 1 < 7 ∧ run.takeCheckCause (rd 0x201C 1) 7 = none := by
  unfold State.takesIn; decide +kernel

theorem test_hypotheses_of_TagsAreTakenMatchedAndFreed :
    let s := (State.reset.setTag 0 (.stale (some ⟨0, 16⟩))).handDown (passIssue (rd 0 1))
    let b := busy State.reset .pass
    (s.issueQueue = [passIssue (rd 0 1)] ∧ s.tags[(1 : DTag)] = .free ∧
        ∀ j : DTag, j < 1 → s.tags[j] ≠ .free) ∧
      State.reset.issueQueue = [] ∧
      s.tags[(0 : DTag)] = .stale (some ⟨0, 16⟩) ∧ State.reset.tags[(0 : DTag)] = .free ∧
      b.tags[(5 : DTag)] = .busy .pass 1 0 1 ⟨0, 1000⟩ ∧
      (⟨0, 1000⟩ : Timer).due 1000 = true ∧ (⟨0, 1000⟩ : Timer).due 999 = false ∧
      (⟨0, 16⟩ : Timer).due 16 = true ∧ (⟨0, 16⟩ : Timer).due 15 = false := by decide +kernel

theorem test_hypotheses_of_RingEventsStayInTheirRing :
    State.reset.actsOn (.start 15) = some 15 ∧ (∃ t, exec (.start 15) State.reset = .next t) ∧
      (at0 run).actsOn (.upstreamRequest (wr 0x1000 [0])) = some 0 ∧
      (busy State.reset (.take 3)).actsOn (.responseTimeout 5) = some 3 := by
  refine ⟨rfl, ⟨_, rfl⟩, ?_⟩; decide +kernel

/-! ## Hypotheses met: ring commands -/

theorem test_hypotheses_of_RingCommandsNeedTheirState :
    (at0 run).resetN = true ∧ ((at0 run).ring 0).state ≠ .idle ∧ ((at0 run).ring 0).state = .running ∧
      ((at0 run).ring 1).state ≠ .running ∧ ((at0 run).ring 1).state = .idle := by decide +kernel

theorem test_hypotheses_of_StartValidatesInOrder :
    RegionsSound (at0 run) ∧ (at0 run).resetN = true :=
  ⟨test_regionsSound_running, rfl⟩

theorem test_hypotheses_of_StartSetsTheRing :
    let s := (at0 run).setRing 1 { Ring.reset with
      config := { cfg with putBase := 0x3000, takeBase := 0x4000, storageBase := 0x20000, slotCount := 1024 } }
    s.resetN = true ∧ s.startResult 1 = .accepted := by decide +kernel

theorem test_hypotheses_of_StopDrains :
    ((at0 { run with occ := 1 }).resetN = true ∧ ¬(at0 { run with occ := 1 }).drained 0) ∧
      ((at0 run).drained 0 ∧ run.state = .running ∧ run.put.head.isParked = false) ∧
      (parkedPut run).put.head = .parked ⟨0, 10⟩ ∧
      (parkedPut run).put.hold = [⟨3, 0, 0, .words [0]⟩] ∧
      (fullPut.state = .running ∧ fullPut.put.head = .parked ⟨0, 10⟩ ∧
        fullPut.put.hold = ⟨3, 0, 0, .words [2]⟩ :: behindPut ∧ fullPut.put.phase = .none ∧
        ¬fullPut.roomFor ∧ 2 ≤ fullPut.config.slots) := by
  unfold State.drained State.noDownstream Ring.roomFor; decide +kernel

/-- STOP empties a queue of five: three headers refused, words refused, ABANDON answered (R52, R66). -/
theorem test_stop_empties_the_queue :
    let t := after (.stop 0) (at0 fullPut)
    t.upResponses.map (fun a => a.status) = [.error, .error, .ok, .error, .error] ∧
      (t.ring 0).put.hold = [] ∧ (t.ring 0).state = .draining ∧
      (t.ring 0).put.refusal.cause = some .orphanWord := by decide +kernel

theorem test_hypotheses_of_AbortEmptiesTheRing :
    (at0 filling).resetN = true ∧ ((at0 filling).ring 0).state = .running ∧ (at0 filling).noDownstream 0 ∧
      ¬(busy (at0 filling) (.put 0)).noDownstream 0 := by
  unfold State.noDownstream; decide +kernel

theorem test_hypotheses_of_EntryToIdleReturnsTheBlocks :
    let d := at0 { run with state := .draining }
    let a := at0 { run with state := .aborting }
    (d.resetN = true ∧ (d.ring 0).state = .draining ∧ d.drained 0) ∧
      ((a.ring 0).state = .aborting ∧ a.noDownstream 0) ∧ ((at0 run).ring 0).state ≠ .draining ∧
      ((at0 run).ring 0).state ≠ .aborting := by
  unfold State.drained State.noDownstream; decide +kernel

/-- A full ring with a header of L = 3, the highest that four words hold, parked alone. -/
theorem test_hypotheses_of_FlushDepartsEverything :
    let x := { run with
      occ := 4
      put := { run.put with head := .parked ⟨0, 10⟩, hold := [⟨3, 0, 0, .words [3]⟩] } }
    (at0 run).resetN = true ∧ ((at0 run).ring 0).put.head.isParked = false ∧
      x.state = .running ∧ x.config.kind = .message ∧ x.put.head = .parked ⟨0, 10⟩ ∧
      x.put.hold = [⟨3, 0, 0, .words [3]⟩] ∧ x.config.burstFits 3 [] ∧ x.put.phase = .none ∧
      2 ≤ x.config.slots ∧ x.put.generationClear := by
  unfold RingConfig.burstFits PutEngine.generationClear; decide +kernel

theorem test_hypotheses_of_CountersSaturateAndSnapshotsCopy : State.reset.resetN = true := rfl

/-! ## Hypotheses met: putting slots -/

theorem test_reachesPut_header : (at0 run).reachesPut (wr 0x1000 [3, 0, 0, 0]) 0 0 := by
  unfold State.reachesPut State.takesIn; decide +kernel

theorem test_reachesPut_words : (at0 filling).reachesPut (wr 0x1004 [7, 8]) 0 1 := by
  unfold State.reachesPut State.takesIn; decide +kernel

theorem test_hypotheses_of_HeaderOpensASlot :
    (at0 run).reachesPut (wr 0x1000 [3, 0, 0, 0]) 0 0 ∧ run.state = .running ∧
      run.put.phase = .none ∧ run.config.burstFits 3 [0, 0, 0] ∧ run.roomFor ∧
      run.put.generationClear :=
  ⟨test_reachesPut_header,
    by unfold RingConfig.burstFits Ring.roomFor PutEngine.generationClear; decide +kernel⟩

theorem test_hypotheses_of_WordsExtendTheSlot :
    (at0 filling).reachesPut (wr 0x1004 [7, 8]) 0 1 ∧ 1 < filling.config.slotWords ∧
      filling.put.phase = .filling ∧ 1 = filling.put.cursor ∧ 1 + 2 ≤ filling.put.lastUsed + 1 :=
  ⟨test_reachesPut_words, by decide +kernel⟩

/-- The five causes of a header and the four above offset 0, each with those before it passed. -/
theorem test_hypotheses_of_PutRefusalsInOrder :
    (at0 run).reachesPut (wr 0x1000 [3, 0, 0, 0]) 0 0 ∧ (at0 run).idleCondition 0 = false ∧
      run.config.slotWords < 1 + run.config.lastOf 4 ∧
      ({ run with state := .draining } : Ring).state = .draining ∧
      run.config.lastOf 2 < ([0, 0, 0] : List Word).length ∧
      ¬({ run with occ := 4 } : Ring).roomFor ∧ run.config.parkTimeout = 0 ∧
      run.put.phase ≠ .filling ∧ filling.put.lastUsed < 3 ∧ 2 ≠ filling.put.cursor ∧
      filling.put.lastUsed < 1 + 3 - 1 :=
  ⟨test_reachesPut_header, by unfold Ring.roomFor; decide +kernel⟩

theorem test_hypotheses_of_PutRefusalsInOrder_queueFull :
    let x := { run with put := { run.put with hold := List.replicate 4 ⟨3, 0, 0, .words [0]⟩ } }
    (at0 x).takesIn (wr 0x1000 [0]) ∧ (at0 x).classify (wr 0x1000 [0]) = .put 0 0 ∧
      x.putCheck (wr 0x1000 [0]) 0 = none ∧ (at0 x).idleCondition 0 = false ∧
      4 ≤ x.put.hold.length := by
  unfold State.takesIn; decide +kernel

/-- A full ring with a park timeout; a torn write that holds the next generation; a request held. -/
theorem test_hypotheses_of_HeldRequestsWait :
    let full := { run with occ := 4, config := { cfg with parkTimeout := 1 } }
    let torn := { run with put := { run.put with torn := [⟨1, 1⟩] } }
    let held := { run with put := { run.put with hold := List.replicate 3 ⟨3, 0, 0, .words [0]⟩ } }
    (full.put.phase = .none ∧ ¬full.roomFor ∧ full.cadence.absent = false ∧
        full.config.parkTimeout ≠ 0 ∧ full.state = .running) ∧
      (torn.put.phase = .none ∧ torn.roomFor ∧ ¬torn.put.generationClear) ∧
      held.put.hold.length < 4 ∧ held.put.hold ≠ [] ∧ held.state ≠ .aborting := by
  unfold Ring.roomFor PutEngine.generationClear; decide +kernel

theorem test_hypotheses_of_HeldRequestsWait_reach :
    (at0 { run with occ := 4, config := { cfg with parkTimeout := 1 } }).reachesPut
        (wr 0x1000 [0]) 0 0 ∧
      (at0 { run with put := { run.put with torn := [⟨1, 1⟩] } }).reachesPut (wr 0x1000 [0]) 0 0 ∧
      (at0 { run with put := { run.put with phase := .committing } }).takesIn (wr 0x1010 [0]) ∧
      run.putCheck (wr 0x1010 [0]) 4 = none := by
  unfold State.reachesPut State.takesIn; decide +kernel

theorem test_hypotheses_of_FillingSlotsAreTorn :
    (at0 filling).reachesPut (wr 0x1000 [3, 0, 0, 0]) 0 0 ∧ filling.put.generationClear ∧
      filling.config.burstFits 3 [0, 0, 0] ∧
      (at0 filling).reachesPut (wr 0x1010 [0]) 0 4 ∧ (at0 run).reachesPut (wr 0x1010 [0]) 0 4 ∧
      filling.put.phase = .filling ∧ filling.state = .running ∧ run.put.phase = .none ∧
      (at0 { filling with state := .draining }).reachesPut (wr 0x1010 [0]) 0 4 ∧
      (at0 run).idleCondition 0 = false := by
  unfold State.reachesPut State.takesIn RingConfig.burstFits PutEngine.generationClear; decide +kernel

theorem test_hypotheses_of_ParkExpiriesEndTheWait :
    (at0 (parkedPut run)).resetN = true ∧ (parkedPut run).put.head = .parked ⟨0, 10⟩ ∧
      (parkedPut run).put.hold = [⟨3, 0, 0, .words [0]⟩] ∧ (parkedPut run).state = .running ∧
      (parkedTake run).take.head = .parked ⟨0, 10⟩ ∧
      (parkedTake run).take.hold = [⟨3, 0, 0, 1, false⟩] ∧ (parkedTake run).state = .running ∧
      (⟨0, 10⟩ : Timer).due 10 = true ∧ (⟨0, 10⟩ : Timer).due 9 = false := by decide +kernel

/-- A full ring and an empty one with four requests behind the head; the empty one DRAINING too, with and
without a read of it in the port. -/
theorem test_hypotheses_of_ParkExpiriesEndTheWait_queues :
    let d := { emptyTake with state := .draining }
    (fullPut.put.head = .parked ⟨0, 10⟩ ∧ fullPut.put.hold = ⟨3, 0, 0, .words [2]⟩ :: behindPut ∧
        fullPut.state = .running ∧ fullPut.put.phase = .none ∧ ¬fullPut.roomFor) ∧
      (emptyTake.take.head = .parked ⟨0, 10⟩ ∧
        emptyTake.take.hold = ⟨3, 0, 0, 1, false⟩ :: behindTake ∧ emptyTake.config.kind = .message ∧
        emptyTake.occ = 0 ∧ emptyTake.take.record.present = false ∧ emptyTake.state = .running) ∧
      d.put.phase = .none ∧ d.put.hold = [] ∧ (at0 d).noDownstream 0 ∧
      ¬(busy (at0 d) (.take 0)).noDownstream 0 := by
  unfold Ring.roomFor State.noDownstream; decide +kernel

/-- Words behind an expired header are orphans; the next header parks, from now, and ends the judging (R52,
R66, R68). -/
theorem test_putParkExpiry_judges_the_queue :
    let t := after (.putParkExpiry 0) (atTime 12 (at0 fullPut))
    t.upResponses = [⟨3, 0, .error, []⟩, ⟨3, 1, .error, []⟩, ⟨3, 2, .ok, []⟩] ∧
      (t.ring 0).put.hold = behindPut.drop 2 ∧ (t.ring 0).put.head = .parked ⟨12, 10⟩ ∧
      (t.ring 0).put.refusal = ⟨some .orphanWord, 3, 1, 12, true⟩ := by decide +kernel

/-- Behind an expired read, reads of other offsets and RELEASE are answered, and the next read of offset 0
parks, from now (R107, R109, R117 to R119). -/
theorem test_takeParkExpiry_judges_the_queue :
    let t := after (.takeParkExpiry 0) (atTime 12 (at0 emptyTake))
    t.upResponses.map (fun a => (a.tag, a.data.length)) = [(0, 1), (1, 2), (2, 1)] ∧
      (t.ring 0).take.hold = behindTake.drop 2 ∧ (t.ring 0).take.head = .parked ⟨12, 10⟩ := by
  decide +kernel

/-! ## Hypotheses met: commits and alignment -/

/-- A COMMITTING slot with its last write outstanding, at a configuration `c` and `occ` published. -/
def committing (c : RingConfig) (occ : Nat) : Ring :=
  { run with
    config := c, occ := occ
    put :=
      { PutEngine.reset with
        phase := .committing, position := occ, generation := 1, cursor := 1, outstanding := 1
        uRequest := some ⟨1, 0, 0⟩, writes := [⟨1, 0, 0, 1⟩] } }

theorem test_hypotheses_of_CommitVerdictsInOrder :
    let x := committing cfg 3
    let s := busy (at0 x) (.put 0)
    StoresCanonical s ∧ s.resetN = true ∧
      s.tags[(5 : DTag)] = .busy (.put 0) 1 0 (s.ring 0).put.generation ⟨0, 1000⟩ ∧
      x.put.writes.find? (fun e => e.requester == 1 && e.tag == 0) = some ⟨1, 0, 0, 1⟩ ∧
      x.put.phase = .committing ∧ x.put.outstanding = 1 ∧ x.put.uRequest = some ⟨1, 0, 0⟩ ∧
      x.put.hold = [] ∧ x.take.head.isParked = false ∧ x.state = .running := by
  unfold StoresCanonical; decide +kernel

/-- The verdicts: a downstream fault, a mismatch, a drop, a gap, and on a PACED ring occ at H. -/
theorem test_hypotheses_of_CommitVerdictsInOrder_cases :
    let a : AlignChecker := { AlignChecker.reset with state := .aligned }
    let strict := { cfg with alignMode := .strict }
    ({ (committing cfg 0).put with downFault := true } : PutEngine).downFault = true ∧
      (({ cfg with checkMode := .verify } : RingConfig).checkMode = .verify ∧
        ({ (committing cfg 0).put with mismatch := true } : PutEngine).mismatch = true) ∧
      (a.judge strict 0 1 0).decision = .drop ∧ (a.judge strict 0 0 0).decision = .publish ∧
      (a.judge strict 0 0 1).decision = .publishGap ∧
      ((committing pacedCfg 2).config.highMark.toNat < 2 + 1 ∧
        1 ≤ pacedCfg.centre.toNat ∧ pacedCfg.centre.toNat ≤ 2) ∧
      1 + 1 ≤ pacedCfg.highMark.toNat ∧ ({ pacedCfg with ageLimit := 1 } : RingConfig).ageLimit ≠ 0 ∧
      ((committing pacedCfg 0).t < pacedCfg.slots ∧ (committing pacedCfg 1).occ ≠ 0) ∧
      (committing { pacedCfg with ageLimit := 1 } 2).blocks[2 / 64]? ≠ none ∧
      (committing cfg 0).blocks[0 / 64]? = some 0 ∧
      (surveying .sampling .commit State.reset).survey.setup.trigger = .commit := by decide +kernel

/-- A slip from H + 1 to C on a ring with an age limit: one slot is left, whose timer is armed. -/
theorem test_slip_armsAge :
    let t := after (.downstreamResponse 5 .ok []) (busy (at0 (committing { pacedCfg with ageLimit := 7 } 2))
      (.put 0))
    (t.ring 0).occ = 1 ∧ (t.ring 0).t = 2 ∧ (t.ring 0).ageTimer = some ⟨0, 7⟩ ∧
      (t.ring 0).events.flags = 0x200#18 := by
  decide +kernel

/-- An outcome of the open slot with another write left, of a torn generation, and one that ends a wait;
the last of a COMMITTING slot with the fault, with a header held behind it, and on an ABORTING ring. -/
theorem test_hypotheses_of_PutOutcomesAreMatched :
    let s := busy (at0 filling) (.put 0)
    let e : WriteEntry := ⟨1, 0, 0, 1⟩
    let torn := { run with
      put := { PutEngine.reset with
        generation := 0, torn := [⟨1, 1⟩], writes := [e], head := .waiting
        hold := [⟨3, 0, 0, .words [3]⟩] } }
    let wait := torn.outcomeCounted 1 0 1 e .ok 0
    let refill := { wait with put := { wait.put with phase := .filling } }
    let last := (committing cfg 3).outcomeCounted 1 0 1 e .error 0
    let held := { last with put := { last.put with hold := [⟨3, 0, 0, .words [3]⟩] } }
    (s.resetN = true ∧ s.tags[(5 : DTag)] = .busy (.put 0) 1 0 1 ⟨0, 1000⟩ ∧
        (⟨0, 1000⟩ : Timer).due (atTime 1000 s).timebase = true ∧
        filling.put.writes.find? (fun e => e.requester == 1 && e.tag == 0) = some e ∧
        filling.put.slotOpen = true ∧ filling.put.generation = 1 ∧ filling.put.phase ≠ .committing) ∧
      (torn.put.slotOpen = false ∧ wait.put.head = .waiting ∧ wait.put.generationClear ∧
        ¬(torn.outcomeCounted 1 0 2 e .ok 0).put.generationClear ∧
        wait.put.hold = [⟨3, 0, 0, .words [3]⟩] ∧ wait.state = .running ∧
        wait.config.burstFits 3 [] ∧ wait.put.phase = .none ∧ wait.roomFor ∧
        refill.put.phase = .filling) ∧
      (last.put.phase = .committing ∧ last.put.outstanding = 0 ∧
        last.put.uRequest = some ⟨1, 0, 0⟩ ∧ last.state = .running ∧ last.put.downFault = true ∧
        last.put.hold = []) ∧
      (held.put.hold = [⟨3, 0, 0, .words [3]⟩] ∧ held.roomFor ∧ held.put.generationClear) ∧
      ({ last with state := .aborting } : Ring).state = .aborting := by
  unfold PutEngine.generationClear Ring.roomFor RingConfig.burstFits; decide +kernel

/-- The ring `committing c occ` with the requests `hold` held behind its slot. -/
def holding (c : RingConfig) (occ : Nat) (hold : List PutReq) : Ring :=
  { committing c occ with put := { (committing c occ).put with hold := hold } }

/-- A header held alone behind a slot that is published, with room for the next and without; a whole queue
behind one that fills a ring, and one on a DRAINING ring; a slot dropped and one discarded for a mismatch;
and a PACED ring. -/
theorem test_hypotheses_of_PutOutcomesAreMatched_held :
    let e : WriteEntry := ⟨1, 0, 0, 1⟩
    let h : List PutReq := [⟨3, 0, 0, .words [3]⟩]
    let x := (holding cfg 2 h).outcomeCounted 1 0 1 e .ok 0
    let j := x.align.judge x.config 0 x.put.marker x.put.sequence
    let y := (x.verdictTaken ⟨1, 0, 0⟩ j 0).1
    let full := ((holding cfg 3 behindPut).verdictTaken ⟨1, 0, 0⟩ j 0).1
    let strict := { holding { cfg with alignMode := .strict } 2 h with
      align := { AlignChecker.reset with state := .aligned } }
    let check := { holding { cfg with checkMode := .verify } 2 h with
      put := { (holding cfg 2 h).put with mismatch := true } }
    (x.state = .running ∧ x.reachesAlign = true ∧ j.decision ≠ .drop ∧ x.config.kind = .message ∧
        x.take.head.isParked = false) ∧
      (x.put.hold = h ∧ y.state = .running ∧ y.config.burstFits 3 [] ∧ y.roomFor ∧
        y.put.generationClear ∧
        ¬({ y with put := { y.put with torn := [⟨2, 1⟩] } } : Ring).put.generationClear) ∧
      (¬full.roomFor ∧ full.put.hold = behindPut ∧ ({ full with state := .draining } : Ring).state =
        .draining) ∧
      (strict.align.judge strict.config 0 1 0).decision = .drop ∧
      (check.put.downFault = false ∧ check.reachesAlign = false) ∧
      (holding pacedCfg 2 h).config.kind = .paced ∧ x.blocks[2 / 64]? = some 0 := by
  unfold PutEngine.generationClear Ring.roomFor RingConfig.burstFits; decide +kernel

/-- The premise of the clause on a slot that is published. -/
theorem test_holding_meets_PositionsSound :
    PositionsSound (busy (at0 (holding cfg 2 [⟨3, 0, 0, .words [3]⟩])) (.put 0)) :=
  positionsSound_of_message _ (by decide +kernel) (by decide +kernel) (by decide +kernel)

/-- The publish and the take of the header held behind it are one event (R52, R63 step 5). -/
theorem test_publish_takes_the_held_header :
    let t := after (.downstreamResponse 5 .ok [])
      (busy (at0 (holding cfg 2 [⟨3, 0, 0, .words [3]⟩])) (.put 0))
    (t.ring 0).occ = 3 ∧ (t.ring 0).put.phase = .filling ∧ (t.ring 0).put.position = 3 ∧
      (t.ring 0).put.hold = [] ∧ t.issueQueue.length = 1 ∧
      t.upResponses = [⟨1, 0, .ok, []⟩] := by decide +kernel

/-- A read parked at the publish is served first, and the held header then opens a slot (R41, R63). -/
theorem test_publish_serves_the_read_then_the_header :
    let x := parkedTake (holding cfg 0 [⟨4, 0, 0, .words [3]⟩])
    let t := after (.downstreamResponse 5 .ok []) (busy (at0 x) (.put 0))
    (x.take.hold = [⟨3, 0, 0, 1, false⟩] ∧ 2 ≤ x.config.slots ∧ x.take.record.present = false ∧
        x.t < x.config.slots ∧ x.blocks[x.t / 64]? ≠ none ∧ x.take.reads = []) ∧
      (t.ring 0).take.record.present = true ∧ (t.ring 0).put.position = 1 ∧
      t.issueQueue.map (fun i => i.owner) = [.take 0, .put 0] := by decide +kernel

/-- A publish that fills the ring refuses the words and the header held behind the slot (R52, R57). -/
theorem test_publish_refuses_the_held_queue :
    let t := after (.downstreamResponse 5 .ok []) (busy (at0 (holding cfg 3 behindPut)) (.put 0))
    (t.ring 0).occ = 4 ∧ (t.ring 0).put.hold = [] ∧
      t.upResponses.map (fun a => a.status) = [.ok, .error, .ok, .error, .error] := by decide +kernel

theorem test_outcomeBy_both :
    let s := atTime 1000 (busy (at0 filling) (.put 0))
    s.outcomeBy 5 ⟨0, 1000⟩ (.downstreamResponse 5 .ok [9]) .ok (s.tags.set 5 .free) ∧
      s.outcomeBy 5 ⟨0, 1000⟩ (.responseTimeout 5) .error
        (s.tags.set 5 (.stale (some ⟨1000, 1000⟩))) :=
  ⟨Or.inl ⟨[9], rfl, rfl⟩, Or.inr ⟨rfl, by decide +kernel, rfl, rfl⟩⟩

/-- Each state of the checker, the marker and sequence tests both ways, and both losses at their
limits. -/
theorem test_hypotheses_of_AlignmentDecidesByState :
    let c := { cfg with marker := 5, errorThreshold := 4 }
    (AlignChecker.reset.state = .off ∧ (5 : BitVec 16) = c.marker ∧ (4 : BitVec 16) ≠ c.marker) ∧
      (0 : BitVec 8) = (255 : BitVec 8) + 1 ∧ (1 : BitVec 8) ≠ (255 : BitVec 8) + 1 ∧
      3 ≤ 2 + 1 ∧ (1 + 1 < 3 ∧ c.errorThreshold.toNat < 4 + 1) ∧ 3 + 1 ≤ c.errorThreshold.toNat := by
  decide +kernel

theorem test_hypotheses_of_SearchTimerAndSecondBoundary :
    let a : AlignChecker := { AlignChecker.reset with state := .confirm, searchTimer := some ⟨0, 1000⟩ }
    let s := atTime 1000000 (at0 { run with align := a })
    s.resetN = true ∧ (s.ring 0).align.searchTimer = some ⟨0, 1000⟩ ∧
      (⟨0, 1000⟩ : Timer).due s.timebase = true ∧ (s.ring 0).align.state = .confirm ∧
      (s.ring 0).secondTimer = some ⟨0, 1000000⟩ ∧ (⟨0, 1000000⟩ : Timer).due s.timebase = true ∧
      (⟨0, 1000000⟩ : Timer).due 999999 = false := by decide +kernel

/-! ## Hypotheses met: taking slots -/

/-- A take start, early and not, with take number 1 held by a read in flight, so that one number is
skipped. -/
theorem test_hypotheses_of_TakeStartServesTheHead :
    let e : ReadEntry := ⟨1, 0, 0, 1, 1, false, 1⟩
    let x := { run with
      occ := 1, config := { cfg with cadenceMin := 1 }
      cadence := { CadenceMonitor.reset with lastStart := some 0 }
      take := { run.take with reads := [e] } }
    ((at0 x).reachesTake (rd 0x2000 4) 0 0 ∧ x.config.kind = .message ∧
        x.take.record.present = false ∧ x.occ ≠ 0) ∧
      x.take.NumbersNext 2 ∧ x.EarlyAt 0 ∧ ¬run.EarlyAt 0 := by
  refine ⟨by unfold State.reachesTake State.takesIn; decide +kernel,
    ⟨by decide +kernel, 1, by decide, by decide +kernel, by decide +kernel⟩,
    ⟨0, rfl, by decide +kernel⟩, ?_⟩
  rintro ⟨_, h, _⟩
  exact absurd h (by simp [run, Ring.reset, CadenceMonitor.reset])

theorem test_hypotheses_of_ReadsWithoutASlot :
    let p := { run with config := { cfg with parkTimeout := 1 } }
    ((at0 run).reachesTake (rd 0x200C 1) 0 3 ∧ 3 < run.config.slotWords ∧
        run.take.record.present = false ∧ (at0 run).idleCondition 0 = false) ∧
      ((at0 run).reachesTake (rd 0x2000 4) 0 0 ∧ run.occ = 0 ∧ run.config.parkTimeout = 0) ∧
      (at0 p).reachesTake (rd 0x2000 1) 0 0 ∧ p.config.parkTimeout ≠ 0 ∧ p.state = .running := by
  unfold State.reachesTake State.takesIn; decide +kernel

/-- A queue of three, which takes a fourth, and one of four, which is full. -/
theorem test_hypotheses_of_ReadsWithoutASlot_queue :
    let held (n : Nat) : Ring :=
      { run with take := { run.take with hold := List.replicate n ⟨3, 0, 0, 1, false⟩ } }
    (at0 (held 3)).takesIn (rd 0x2010 1) ∧ (at0 (held 3)).classify (rd 0x2010 1) = .take 0 4 ∧
      (held 3).takeCheckCause (rd 0x2010 1) 4 = none ∧ 4 ≤ (held 3).config.slotWords ∧
      (at0 (held 3)).idleCondition 0 = false ∧ (held 3).take.hold ≠ [] ∧
      (held 3).take.hold.length < 4 ∧ 4 ≤ (held 4).take.hold.length := by
  unfold State.takesIn; decide +kernel

/-- At U and one beyond it, with take check off; with it on, a read in flight, the cursor, and another
offset. -/
theorem test_hypotheses_of_PresentTakesServeReads :
    let x := { run with take := { run.take with record := taking } }
    let y := { x with config := { cfg with takeCheck := true, checkMode := .verify } }
    ((at0 x).reachesTake (rd 0x2008 2) 0 2 ∧ x.take.record.present = true ∧ 2 ≤ taking.lastUsed ∧
        x.config.takeCheck = false) ∧
      ((at0 x).reachesTake (rd 0x200C 1) 0 3 ∧ taking.lastUsed < 3) ∧
      ((at0 y).reachesTake (rd 0x2000 1) 0 0 ∧ ∀ d ∈ y.take.reads, d.number ≠ taking.number) ∧
      ((at0 y).reachesTake (rd 0x2004 1) 0 1 ∧ 1 ≠ taking.cursor) ∧
      ∃ d ∈ [(⟨1, 0, 0, 1, 1, false, 1⟩ : ReadEntry)], d.number = taking.number := by
  unfold State.reachesTake State.takesIn; decide +kernel

/-- A state with a checked read of the take in flight that covers U. -/
def reading : Ring :=
  { run with
    config := { cfg with takeCheck := true, checkMode := .verify }
    take := { run.take with record := taking, reads := [⟨1, 0, 0, 4, 1, true, 3⟩] } }

theorem test_hypotheses_of_ReadOutcomesEndTheTake :
    let s := busy (at0 reading) (.take 0)
    s.resetN = true ∧ s.tags[(5 : DTag)] = .busy (.take 0) 1 0 1 ⟨0, 1000⟩ ∧
      reading.take.reads.find? (fun e => e.requester == 1 && e.tag == 0) =
        some ⟨1, 0, 0, 4, 1, true, 3⟩ ∧
      reading.take.hold = [] ∧ reading.take.head = .clear ∧ reading.put.head.isParked = false ∧
      ([2, 7, 8] : List Word).length = 3 := by
  decide +kernel

/-- The premise of the clause on occ. -/
theorem test_reading_meets_PositionsSound : PositionsSound (busy (at0 reading) (.take 0)) :=
  positionsSound_of_message _ (by decide +kernel) (by decide +kernel) (by decide +kernel)

/-- A late response of one word, to a request that asked for three, runs (log 26). -/
theorem test_lateResponse_runs :
    let x := { reading with config := cfg }
    let t := after (.downstreamResponse 5 .ok [2]) (busy (at0 x) (.take 0))
    t.freeCount = 2 ∧ (t.ring 0).take.reads = [] ∧ (t.ring 0).take.record.present = false := by
  decide +kernel

theorem test_hypotheses_of_FailedReadsAndRelease :
    let s := atTime 1000 (busy (at0 reading) (.take 0))
    s.tags[(5 : DTag)] = .busy (.take 0) 1 0 1 ⟨0, 1000⟩ ∧
      (⟨0, 1000⟩ : Timer).due s.timebase = true ∧ reading.take.hold = [] ∧
      (at0 reading).reachesTake (rd 0x2010 1) 0 4 ∧ reading.take.record.present = true ∧
      (at0 run).reachesTake (rd 0x2010 1) 0 4 ∧ run.take.record.present = false ∧
      (at0 run).idleCondition 0 = false := by
  unfold State.reachesTake State.takesIn; decide +kernel

/-- The commit that publishes on an empty ring with a read parked. -/
theorem test_hypotheses_of_HeldRequestsAreServed_publish :
    let x := parkedTake (committing cfg 0)
    let s := busy (at0 x) (.put 0)
    StoresCanonical s ∧ s.resetN = true ∧ s.tags[(5 : DTag)] = .busy (.put 0) 1 0 1 ⟨0, 1000⟩ ∧
      x.put.writes.find? (fun e => e.requester == 1 && e.tag == 0) = some ⟨1, 0, 0, 1⟩ ∧
      (x.put.phase = .committing ∧ x.put.outstanding = 1 ∧ x.put.downFault = false ∧
        x.config.checkMode ≠ .verify ∧ x.put.uRequest = some ⟨1, 0, 0⟩ ∧ x.put.hold = []) ∧
      (x.state = .running ∧ x.config.kind = .message ∧ x.occ = 0 ∧ x.t < x.config.slots ∧
        x.blocks[x.t / 64]? ≠ none ∧ x.take.record.present = false ∧
        x.take.head = .parked ⟨0, 10⟩ ∧ x.take.hold = [⟨3, 0, 0, 1, false⟩]) ∧
      (x.align.judge x.config s.timebase x.put.marker x.put.sequence).decision = .publish ∧
      ∀ d ∈ x.take.reads, d.number ≠ 1 := by
  unfold StoresCanonical; decide +kernel

/-- A full ring whose take is released, by the read of U or by RELEASE, with a header parked and its
generation clear or held. -/
theorem test_hypotheses_of_HeldRequestsAreServed_release :
    let x := parkedPut { reading with occ := 3 }
    let s := busy (at0 x) (.take 0)
    (s.resetN = true ∧ s.tags[(5 : DTag)] = .busy (.take 0) 1 0 1 ⟨0, 1000⟩ ∧
        x.take.reads.find? (fun e => e.requester == 1 && e.tag == 0) =
          some ⟨1, 0, 0, 4, 1, true, 3⟩ ∧
        x.take.hold = [] ∧ x.take.record.present = true ∧ x.take.record.number = 1) ∧
      (x.config.kind = .message ∧ x.state = .running ∧ x.put.head = .parked ⟨0, 10⟩ ∧
        x.put.hold = [⟨3, 0, 0, .words [0]⟩] ∧ x.put.phase = .none ∧ x.config.burstFits 0 [] ∧
        x.occ + 1 ≤ x.config.slots) ∧
      x.put.generationClear ∧
      ¬({ x.put with torn := [⟨1, 1⟩] } : PutEngine).generationClear ∧
      (at0 x).reachesTake (rd 0x2010 1) 0 4 := by
  unfold State.reachesTake State.takesIn RingConfig.burstFits PutEngine.generationClear
  decide +kernel

/-- A checked read that waits behind one read of its take, and behind two. -/
def waitingRead (reads : List ReadEntry) : Ring :=
  { reading with
    take := { reading.take with reads := reads, head := .waiting, hold := [⟨3, 0, 1, 1, false⟩] } }

theorem test_hypotheses_of_HeldRequestsAreServed_wait :
    let e : ReadEntry := ⟨1, 0, 0, 1, 1, false, 1⟩
    let x := waitingRead [e]
    let s := busy (at0 x) (.take 0)
    s.resetN = true ∧ s.tags[(5 : DTag)] = .busy (.take 0) 1 0 1 ⟨0, 1000⟩ ∧
      x.take.reads.find? (fun e => e.requester == 1 && e.tag == 0) = some e ∧
      x.take.head = .waiting ∧ x.take.hold = [⟨3, 0, 1, 1, false⟩] ∧ x.state = .running ∧
      (∃ d ∈ (waitingRead [e, ⟨2, 0, 1, 1, 1, false, 1⟩]).take.reads,
        d.number = 1 ∧ ¬(d.requester = 1 ∧ d.tag = 0)) ∧
      (∀ d ∈ x.take.reads, d.number = 1 → d.requester = 1 ∧ d.tag = 0) ∧
      x.config.takeCheck = true ∧ x.take.record.present = true ∧ x.take.record.number = 1 ∧
      1 = min (e.offset + e.count) x.take.record.lastUsed := by
  decide +kernel

/-- R82, R107: after a revocation the answer to a read of an older take ends no wait; the answer to the
read waited for does. -/
theorem test_wait_endsWithItsRead :
    let older : ReadEntry := ⟨1, 0, 0, 4, 0, false, 3⟩
    let own : ReadEntry := ⟨2, 0, 0, 1, 1, false, 1⟩
    let revoked (reads : List ReadEntry) : Ring :=
      { waitingRead reads with
        take := { (waitingRead reads).take with record := taking.cleared } }
    ((after (.downstreamResponse 5 .ok [1, 2, 3]) (busy (at0 (revoked [older, own])) (.take 0))).ring
        0).take.head = .waiting ∧
      ((after (.downstreamResponse 5 .ok [1])
        (busy (at0 (revoked [{ own with requester := 1 }])) (.take 0))).ring 0).take.hold = [] := by
  decide +kernel

/-! ## Hypotheses met: PACED rings and cadence -/

/-- Priming below C, a replay, and a head with the next one inside its age limit and past it. -/
theorem test_hypotheses_of_PacedTakesAreDecided :
    let flowing := { paced with paced := .flowing, t := 1, retained := true }
    let primed := { paced with occ := 1 }
    let aging := { paced with occ := 2, config := { pacedCfg with ageLimit := 5 } }
    ((at0 paced).reachesTake (rd 0x2000 1) 0 0 ∧ paced.config.kind = .paced ∧
        paced.take.record.present = false ∧ paced.paced = .priming ∧
        paced.occ < paced.config.centre.toNat ∧ (at0 paced).idleCondition 0 = false) ∧
      ((at0 flowing).reachesTake (rd 0x2000 1) 0 0 ∧ flowing.state = .running ∧
        flowing.paced = .flowing ∧ flowing.occ = 0) ∧
      ((at0 primed).reachesTake (rd 0x2000 1) 0 0 ∧ primed.paced = .priming ∧
        primed.config.centre.toNat ≤ primed.occ ∧ primed.occ ≠ 0) ∧
      ((at0 aging).reachesTake (rd 0x2000 1) 0 0 ∧ aging.config.ageLimit ≠ 0 ∧ aging.occ ≠ 1 ∧
        ((at0 aging).timebase - ((at0 aging).stampAt 0 1).commitTime).toNat <
          aging.config.ageLimit.toNat ∧
        aging.config.ageLimit.toNat ≤
          ((atTime 5 (at0 aging)).timebase - ((at0 aging).stampAt 0 1).commitTime).toNat) ∧
      ∀ d ∈ paced.take.reads, d.number ≠ 1 := by
  unfold State.reachesTake State.takesIn; decide +kernel

theorem test_hypotheses_of_AgeExpiryDepartsTheHead :
    let x := { paced with occ := 2, ageTimer := some ⟨0, 5⟩, config := { pacedCfg with ageLimit := 5 } }
    (at0 x).resetN = true ∧ x.ageTimer = some ⟨0, 5⟩ ∧ (⟨0, 5⟩ : Timer).due 4 = false ∧
      (⟨0, 5⟩ : Timer).due 5 = true ∧ x.occ ≠ 0 ∧ x.config.kind = .paced ∧ x.config.ageLimit ≠ 0 ∧
      x.state = .running := by decide +kernel

/-- A late timer of a ring whose absence limit is 1, and a header parked beside it. -/
theorem test_hypotheses_of_LateExpiriesAreCounted :
    let x := { run with
      occ := 4, config := { cfg with cadenceMax := 8 }
      cadence := { CadenceMonitor.reset with lateTimer := some ⟨0, 8⟩ } }
    (at0 x).resetN = true ∧ x.state = .running ∧ x.cadence.lateTimer = some ⟨0, 8⟩ ∧
      x.config.cadenceMax ≠ 0 ∧ (⟨0, 8⟩ : Timer).due 7 = false ∧ (⟨0, 8⟩ : Timer).due 8 = true ∧
      x.occ ≠ 0 ∧ run.occ = 0 ∧ x.put.head.isParked = false ∧
      (x.cadence.lateCount ≠ x.config.absenceLimit.toNat ∧
        x.cadence.lateCount + 1 = x.config.absenceLimit.toNat ∧ x.cadence.absent = false) ∧
      x.config.kind = .message ∧ (parkedPut x).put.head = .parked ⟨0, 10⟩ ∧
      (parkedPut x).put.hold = [⟨3, 0, 0, .words [0]⟩] := by decide +kernel

/-- The declaration of an absent consumer empties the queue behind a parked header (R52, R69, R144). -/
theorem test_absence_empties_the_queue :
    let x := { fullPut with
      config := { fullPut.config with cadenceMax := 8 }
      cadence := { CadenceMonitor.reset with lateTimer := some ⟨0, 8⟩ } }
    let t := after (.lateTimerExpiry 0) (atTime 8 (at0 x))
    (x.put.phase = .none ∧ ¬x.roomFor) ∧
      t.upResponses.map (fun a => a.status) = [.error, .error, .ok, .error, .error] ∧
      (t.ring 0).put.hold = [] ∧ (t.ring 0).cadence.absent = true ∧
      (t.ring 0).put.refusal.cause = some .orphanWord := by unfold Ring.roomFor; decide +kernel

/-! ## Hypotheses met: the survey -/

theorem test_hypotheses_of_ArmAndDisarmAreJudged :
    State.reset.resetN = true ∧
      (after .surveyArm (surveying .idle .take (at0 run))).port.result = .accepted ∧
      (after .surveyArm (surveying .idle .syncRise (at0 run))).port.result = .accepted ∧
      (after .surveyArm (surveying .idle .timer (at0 run))).port.result = .accepted ∧
      (after .surveyArm State.reset).port.result = .sourceIdle := by decide +kernel

theorem test_hypotheses_of_ExpiriesAndEdgesTakeSamples_interval :
    let s := surveying .sampling .timer (at0 run)
    let s := { s with survey := { s.survey with intervalTimer := some ⟨0, 1⟩ } }
    s.resetN = true ∧ s.survey.state = .sampling ∧ s.survey.intervalTimer = some ⟨0, 1⟩ ∧
      s.survey.setup.trigger = .timer ∧ (⟨0, 1⟩ : Timer).due 0 = false ∧
      (⟨0, 1⟩ : Timer).due 1 = true := by decide +kernel

theorem test_hypotheses_of_ExpiriesAndEdgesTakeSamples_sync :
    let s := surveying .armed .syncRise (at0 run)
    let h := surveying .sampling .syncFall (at0 run)
    let h := { h with survey := { h.survey with
      setup := { h.survey.setup with holdoff := true }, intervalTimer := some ⟨0, 1⟩ } }
    (s.resetN = true ∧ s.survey.state = .armed ∧ s.survey.delayTimer = none ∧
        s.survey.setup.selects true ∧ ¬s.survey.setup.selects false ∧
        s.survey.setup.syncDelay = 0) ∧
      ({ s.survey.setup with syncDelay := 1 } : SurveySetup).syncDelay ≠ 0 ∧
      (⟨0, 1023⟩ : Timer).due 1022 = false ∧ (⟨0, 1023⟩ : Timer).due 1023 = true ∧
      (h.survey.state = .sampling ∧ h.survey.intervalTimer = some ⟨0, 1⟩ ∧
        h.survey.setup.trigger = .syncFall ∧ h.survey.setup.holdoff = true) := by
  unfold SurveySetup.selects; decide +kernel

/-! ## Hypotheses met: the Event Unit and the management port -/

/-- The first and the last byte of a ring's flags and enables, and the global ones. -/
theorem test_hypotheses_of_FlagAndEnableBytesDriveTheLine :
    (atPort .write 1 0x39 none State.reset).atByte ⟨.ring 0 .flags, 0x39, 3, .w1c⟩ 0 ∧
      (atPort .write 16 0x3B none State.reset).atByte ⟨.ring 15 .flags, 0x39, 3, .w1c⟩ 2 ∧
      (atPort .write 0 0x0E none State.reset).atByte ⟨.global .flags, 0x0E, 1, .w1c⟩ 0 ∧
      (atPort .write 16 0x3E none State.reset).atByte ⟨.ring 15 .enables, 0x3C, 3, .en⟩ 2 ∧
      (atPort .write 0 0x0F none State.reset).atByte ⟨.global .enables, 0x0F, 1, .en⟩ 0 := by
  unfold State.atByte; decide +kernel

theorem test_hypotheses_of_ReportsTicksAndPulsesDriveTheLine :
    let a := at0 { run with state := .aborting }
    let s := { State.reset with period := 1, coalTimer := some ⟨0, 1000⟩, driver := .pulse ⟨0, 2⟩ }
    ((at0 run).takesIn (wr 0x10000 [1]) ∧ (at0 run).classify (wr 0x10000 [1]) = .guardedWrite 0) ∧
      (a.resetN = true ∧ (a.ring 0).state = .aborting ∧ a.noDownstream 0) ∧
      ({ a.survey with setup := { a.survey.setup with source := 1 } } : Survey).setup.source ≠ 0 ∧
      (atPort .write 0 0x0B none State.reset).atByte ⟨.global .period, 0x0B, 1, .rw⟩ 0 ∧
      (s.coalTimer = some ⟨0, 1000⟩ ∧ s.period ≠ 0 ∧ (⟨0, 1000⟩ : Timer).due 1000 = true ∧
        (⟨0, 1000⟩ : Timer).due 999 = false) ∧
      s.driver = .pulse ⟨0, 2⟩ ∧ (⟨0, 2⟩ : Timer).due 2 = true ∧ (⟨0, 2⟩ : Timer).due 1 = false := by
  unfold State.takesIn State.noDownstream State.atByte; decide +kernel

theorem test_hypotheses_of_TransactionsSelectMappedFields :
    (atPort .awaitSub 0 0 none State.reset).port.transaction = .awaitSub ∧ State.reset.resetN = true ∧
      (atPort .write 17 0 none State.reset).atByte pageRegister 0 ∧ (17 : Byte).toNat < 18 ∧
      18 ≤ (18 : Byte).toNat := by
  unfold State.atByte; decide +kernel

theorem test_hypotheses_of_TransactionsSelectMappedFields_map :
    let s := atPort .write 17 0x1C none State.reset
    (0x98 ≤ pageTop 16 ∧ pageTop 0 < 0x17) ∧ s.resetN = true ∧ s.portField = none ∧
      pageTop s.port.page < s.port.sub.toNat ∧ s.port.transaction = .write ∧
      (atPort .read 17 0xFF none State.reset).port.transaction = .read := by decide +kernel

theorem test_hypotheses_of_DataBytesAreJudgedByClass :
    let st : Option Staging := some ⟨0, 0x05, [1, 2]⟩
    (atPort .write 0 0x01 none State.reset).atByte ⟨.global .partCode, 0x01, 2, .ro⟩ 0 ∧
      ((atPort .write 1 0x03 none (at0 run)).atByte ⟨.ring 0 .kind, 0x03, 1, .idle⟩ 0 ∧
        (at0 run).ownerIdle (.ring 0 .kind) = false) ∧
      (atPort .write 1 0x05 (some ⟨1, 0x04, [1]⟩) (at0 run)).atByte
        ⟨.ring 0 .putBase, 0x04, 4, .idle⟩ 1 ∧
      ((atPort .write 0 0x07 st State.reset).atByte ⟨.global .scratch, 0x05, 4, .rw⟩ 2 ∧
        2 + 1 < 4 ∧ ([1, 2] : List Byte).length = 2) ∧
      (∀ bs, (atPort .write 0 0x07 none State.reset).port.staging = some ⟨0, 0x05, bs⟩ →
        bs.length ≠ 2) ∧
      dataByteOf (.flagClear 7) = some 7 ∧ State.reset.port.transaction ≠ .write := by
  refine ⟨?_, ?_, ?_, ?_, ?_, ?_⟩
  · unfold State.atByte; decide +kernel
  · unfold State.atByte; decide +kernel
  · unfold State.atByte; decide +kernel
  · unfold State.atByte; decide +kernel
  · intro bs h; exact absurd h (by simp [atPort])
  · decide +kernel

/-- A middle byte of a field that the ring locks is refused, and the staging ends (table 11.1). -/
theorem test_middleByte_ofActiveRing_refused :
    let t := after (.registerWrite 2) (atPort .write 1 0x05 (some ⟨1, 0x04, [1]⟩) (at0 run))
    let u := after (.registerWrite 2) (atPort .write 1 0x05 (some ⟨1, 0x04, [1]⟩) State.reset)
    (t.port.reply = .nack ∧ t.port.staging = none) ∧
      u.port.reply = .ack ∧ u.port.staging = some ⟨1, 0x04, [1, 2]⟩ := by
  decide +kernel

/-- Fields of one to four bytes completed, on each page. -/
theorem test_hypotheses_of_LastBytesWriteTheValue :
    let w (p : Fin 18) (sub : Byte) (low : Nat) (bs : List Byte) : State :=
      atPort .write p sub (some ⟨p, low, bs⟩) State.reset
    (w 0 0x0D 0x0C [0]).completes ⟨.global .downTimeout, 0x0C, 2, .rw⟩ 16 16 ∧
      (w 0 0x08 0x05 [1, 2, 3]).completes ⟨.global .scratch, 0x05, 4, .rw⟩ 4 0x01020304 ∧
      (w 17 0x05 0x04 [1]).completes ⟨.survey .samples, 0x04, 2, .idle⟩ 0 256 ∧
      (w 16 0x07 0x04 [0, 0, 0]).completes ⟨.ring 15 .putBase, 0x04, 4, .idle⟩ 7 7 ∧
      (atPort .write 16 0x30 none State.reset).completes ⟨.ring 15 .absenceLimit, 0x30, 1, .idle⟩ 16
        16 := by
  refine ⟨⟨[0], ?_⟩, ⟨[1, 2, 3], ?_⟩, ⟨[1], ?_⟩, ⟨[0, 0, 0], ?_⟩, ⟨[], ?_⟩⟩ <;>
    (unfold State.atByte; decide +kernel)

/-- The values that each rule lets a field keep and refuses, at its limits, and the write of repeat while
the unit is busy. -/
theorem test_hypotheses_of_LastBytesWriteTheValue_values :
    (RingReg.kind.stored 3 = some 1 ∧ RingReg.putBase.stored 7 = some 4 ∧
        RingReg.sizeCode.stored 15 = some 7 ∧ RingReg.slotCount.stored 2049 = some 1 ∧
        RingReg.producer.stored 16 = some 16 ∧ RingReg.producer.stored 17 = none ∧
        RingReg.checkMode.stored 2 = some 2 ∧ RingReg.checkMode.stored 3 = none ∧
        RingReg.searchTimeout.stored 1000 = some 1000 ∧ RingReg.searchTimeout.stored 1001 = none ∧
        RingReg.absenceLimit.stored 16 = none ∧ RingReg.fillWord.stored 0 = some 0) ∧
      (SurveyReg.source.stored 15 = some 15 ∧ SurveyReg.source.stored 16 = none ∧
        SurveyReg.quantity.stored 2 = none ∧ SurveyReg.trigger.stored 4 = some 4 ∧
        SurveyReg.trigger.stored 5 = none ∧ SurveyReg.samples.stored 256 = some 256 ∧
        SurveyReg.samples.stored 257 = none ∧ SurveyReg.interval.stored 0 = none ∧
        SurveyReg.syncDelay.stored 1023 = some 1023 ∧ SurveyReg.syncDelay.stored 1024 = none ∧
        SurveyReg.repeats.stored 2 = some 0) ∧
      (surveying .armed .take State.reset).survey.state ≠ .idle ∧ ((at0 run).ring 0).state ≠ .idle := by
  decide +kernel

theorem test_hypotheses_of_DataBytesAreJudgedByClass_commands :
    (atPort .write 16 0x01 none State.reset).atByte ⟨.ring 15 .command, 0x01, 1, .cmd⟩ 0 ∧
      (atPort .write 0 0x09 none State.reset).atByte ⟨.global .command, 0x09, 1, .cmd⟩ 0 ∧
      5 < (6 : Byte).toNat ∧ 3 < (4 : Byte).toNat := by
  unfold State.atByte; decide +kernel

/-- A single-byte field, the first byte of a longer one and the last. -/
theorem test_hypotheses_of_ReadsLatchWholeFields :
    (atPort .read 0 0x03 none State.reset).readsByte ⟨.global .revision, 0x03, 1, .ro⟩ 0 ∧
      (atPort .read 0 0x13 none State.reset).readsByte ⟨.global .time, 0x13, 4, .ro⟩ 0 ∧
      (atPort .read 0 0x16 none State.reset).readsByte ⟨.global .time, 0x13, 4, .ro⟩ 3 ∧
      StoresCanonical State.reset ∧ State.reset.readReg (.global .time) < 2 ^ 64 := by
  unfold State.readsByte StoresCanonical; decide +kernel

/-- A record and a stamp that are there; the premises of the other clauses name values only. -/
theorem test_hypotheses_of_FieldsReadAsTheTables :
    (run.t < 1024 ∧ run.occ < 2048 ∧ run.blocks.length ≤ 16 ∧ run.put.refusal.offset < 2 ^ 16) ∧
      ({ run with occ := 1 } : Ring).occ ≠ 0 ∧ reading.take.record.present = true ∧
      run.occ = 0 ∧ run.take.record.present = false := by decide +kernel

/-! ## Hypotheses met: what every step keeps -/

/-- A state with a running ring, one outstanding request and a command waiting. -/
def live : State :=
  { at0 run with outstanding := [⟨1, 0, .read, 1⟩], pending := [.upstreamRequest (wr 0x1000 [0])] }

theorem test_live_steps : ∃ t, step live = .next t := ⟨_, rfl⟩

theorem test_live_meets_StoresCanonical : StoresCanonical live := by
  unfold StoresCanonical; decide +kernel

theorem test_live_meets_TableSound : TableSound live := by unfold TableSound; decide +kernel

theorem test_live_meets_PoolSound : PoolSound live := by
  have none : ∀ r : RingId, r ≠ 0 → (live.ring r).blocks = [] := by decide +kernel
  have only : ∀ r b, b ∈ (live.ring r).blocks → r = 0 := by
    intro r b h
    by_contra hr
    rw [none r hr] at h
    exact absurd h (by simp)
  refine ⟨by decide +kernel, fun r q b hr hq => ?_, by decide +kernel⟩
  rw [only r b hr, only q b hq]

theorem test_live_meets_PositionsSound : PositionsSound live :=
  positionsSound_of_message _ (by decide +kernel) (by decide +kernel) (by decide +kernel)

theorem test_live_meets_LineSound : LineSound live := by unfold LineSound; decide +kernel

theorem test_live_meets_RegionsSound : RegionsSound live := by unfold RegionsSound; decide +kernel

theorem test_live_meets_NoRingOverdue : NoRingOverdue live := by unfold NoRingOverdue; decide +kernel

end Sys2Proof.Tests
end

/-! PROOFS. The memory link (chapter 1): what a report leaves unchanged, what becomes of an accepted request
of each class, and the downstream answers to PASS requests; with O9, O11 and O12. -/

namespace Sys2Proof.Laws

open Sys2Proof.Machine

/-! ## Reports and refusal records (R12, R162, R168) -/

@[simp] theorem ring_raise_self (s : State) (r : RingId) (f : RingFlag) :
    (s.raise r f).ring r = { s.ring r with
      events := { (s.ring r).events with flags := (s.ring r).events.flags ||| f.mask } } :=
  ring_modEvents_self s r (fun e => { e with flags := e.flags ||| f.mask })

@[simp] theorem ring_bump_self (s : State) (r : RingId) (c : Counter) (n : Nat) :
    (s.bump r c n).ring r = { s.ring r with
      events := { (s.ring r).events with
        counters := (s.ring r).events.counters.set c.index
          (advanceCounter (s.ring r).events.counters[c.index] n) } } :=
  ring_modEvents_self s r _

@[simp] theorem ring_recordPut_self (s : State) (r : RingId) (c : Cause) (q : Requester) (k : Nat) :
    (s.recordPut r c q k).ring r = { s.ring r with
      put := { (s.ring r).put with refusal := ⟨some c, q, k, s.timebase, true⟩ }
      events := (s.ring r).events.report c.putFlag.mask c.putCounter.index 1 } := by
  simp only [State.recordPut, ring_bump_self, ring_raise_self, ring_modPut_self, RingEvents.report]

@[simp] theorem ring_recordTake_self (s : State) (r : RingId) (c : Cause) (q : Requester) (k : Nat) :
    (s.recordTake r c q k).ring r = { s.ring r with
      take := { (s.ring r).take with refusal := ⟨some c, q, k, s.timebase, true⟩ }
      events := (s.ring r).events.report c.takeFlag.mask c.takeCounter.index 1 } := by
  simp only [State.recordTake, ring_bump_self, ring_raise_self, ring_modTake_self, RingEvents.report]

/-- From `s` to `u` nothing changes but the rings, the global flags and the interrupt line's driver. -/
def ReportsOnly (s u : State) : Prop :=
  u = { s with rings := u.rings, globalFlags := u.globalFlags, driver := u.driver }

theorem reportsOnly_raise (s : State) (r : RingId) (f : RingFlag) : ReportsOnly s (s.raise r f) := rfl

theorem reportsOnly_raiseGlobal (s : State) (f : GlobalFlag) : ReportsOnly s (s.raiseGlobal f) := rfl

theorem reportsOnly_recordPut (s : State) (r : RingId) (c : Cause) (q : Requester) (k : Nat) :
    ReportsOnly s (s.recordPut r c q k) := rfl

theorem reportsOnly_recordTake (s : State) (r : RingId) (c : Cause) (q : Requester) (k : Nat) :
    ReportsOnly s (s.recordTake r c q k) := rfl

/-! ## The causes of R9 -/

/-- A cause of the checks of R9. -/
def ApertureCause (c : Cause) : Prop :=
  c ∈ [Cause.aborting, .wrongRequester, .mixed, .wrongDirection, .unusedOffset, .partialLanes]

theorem apertureCause_of_commonCheck {x : Ring} {f : Filter} {q : UpRequest} {k : Nat} {c : Cause}
    (h : x.commonCheck f q k = some c) : ApertureCause c := by
  unfold Ring.commonCheck at h
  split_ifs at h <;> cases h <;> simp [ApertureCause]

theorem apertureCause_of_putCell {x : Ring} {q : UpRequest} {k : Nat} {c : Cause}
    (h : x.putCell q k = some c) : ApertureCause c := by
  cases hd : q.dir with
  | read =>
    simp only [Ring.putCell, hd] at h
    split_ifs at h
    cases h
    simp [ApertureCause]
  | write =>
    simp only [Ring.putCell, hd] at h
    split_ifs at h <;> cases h <;> simp [ApertureCause]

theorem apertureCause_of_takeCell {q : UpRequest} {c : Cause} (h : takeCell q = some c) :
    ApertureCause c := by
  cases hd : q.dir with
  | read => simp [takeCell, hd] at h
  | write =>
    simp only [takeCell, hd] at h
    cases h
    simp [ApertureCause]

theorem apertureCause_of_putCheck {x : Ring} {q : UpRequest} {k : Nat} {c : Cause}
    (h : x.putCheck q k = some c) : ApertureCause c := by
  rcases Option.or_eq_some_iff.1 h with common | ⟨_, cell⟩
  · exact apertureCause_of_commonCheck common
  · exact apertureCause_of_putCell cell

theorem apertureCause_of_takeCheckCause {x : Ring} {q : UpRequest} {k : Nat} {c : Cause}
    (h : x.takeCheckCause q k = some c) : ApertureCause c := by
  rcases Option.or_eq_some_iff.1 h with common | ⟨_, cell⟩
  · exact apertureCause_of_commonCheck common
  · exact apertureCause_of_takeCell cell

/-- Their rows of table 3.4. -/
theorem put_report_of_apertureCause {c : Cause} (h : ApertureCause c) :
    c.putFlag = .putFault ∧ c.putCounter = .putFaults := by
  simp only [ApertureCause, List.mem_cons, List.not_mem_nil, or_false] at h
  rcases h with rfl | rfl | rfl | rfl | rfl | rfl <;> exact ⟨rfl, rfl⟩

/-- Their rows of table 6.2. -/
theorem take_report_of_apertureCause {c : Cause} (h : ApertureCause c) :
    c.takeFlag = .takeFault ∧ c.takeCounter = .takeFaults := by
  simp only [ApertureCause, List.mem_cons, List.not_mem_nil, or_false] at h
  rcases h with rfl | rfl | rfl | rfl | rfl | rfl <;> exact ⟨rfl, rfl⟩

/-! ## Acceptance and classes (R2 to R6) -/

section

variable {s : State} {q : UpRequest}

theorem exec_upstreamRequest_of_takesIn (h : s.takesIn q) :
    exec (.upstreamRequest q) s = .next ((s.enterOutstanding q).dispatchRequest q) := by
  obtain ⟨form, accepted, free⟩ := h
  show execUpstreamRequest q s = _
  simp [execUpstreamRequest, State.offer, form, accepted, free]

@[simp] theorem classify_enterOutstanding : (s.enterOutstanding q).classify q = s.classify q := rfl

theorem exec_upstreamRequest_pass (h : s.takesIn q) (cls : s.classify q = .pass) :
    exec (.upstreamRequest q) s = .next ((s.enterOutstanding q).handDown (passIssue q)) := by
  simp [exec_upstreamRequest_of_takesIn h, State.dispatchRequest, cls]

theorem exec_upstreamRequest_straddle (h : s.takesIn q) (cls : s.classify q = .straddle) :
    exec (.upstreamRequest q) s =
      .next (((s.enterOutstanding q).raiseGlobal .straddle).respondError q.requester q.tag) := by
  simp [exec_upstreamRequest_of_takesIn h, State.dispatchRequest, cls]

theorem exec_upstreamRequest_guardedWrite {r : RingId} (h : s.takesIn q)
    (cls : s.classify q = .guardedWrite r) :
    exec (.upstreamRequest q) s =
      .next (((s.enterOutstanding q).raise r .guardHit).respondError q.requester q.tag) := by
  simp [exec_upstreamRequest_of_takesIn h, State.dispatchRequest, cls]

theorem exec_upstreamRequest_put {r : RingId} {k : Nat} (h : s.takesIn q)
    (cls : s.classify q = .put r k) :
    exec (.upstreamRequest q) s = .next ((s.enterOutstanding q).putRequest r q k) := by
  simp [exec_upstreamRequest_of_takesIn h, State.dispatchRequest, cls]

theorem exec_upstreamRequest_take {r : RingId} {k : Nat} (h : s.takesIn q)
    (cls : s.classify q = .take r k) :
    exec (.upstreamRequest q) s = .next ((s.enterOutstanding q).takeRequest r q k) := by
  simp [exec_upstreamRequest_of_takesIn h, State.dispatchRequest, cls]

theorem putRequest_of_refused {r : RingId} {k : Nat} {c : Cause}
    (h : (s.ring r).putCheck q k = some c) :
    s.putRequest r q k = (s.recordPut r c q.requester k).respondError q.requester q.tag := by
  simp [State.putRequest, h]

theorem takeRequest_of_refused {r : RingId} {k : Nat} {c : Cause}
    (h : (s.ring r).takeCheckCause q k = some c) :
    s.takeRequest r q k = (s.recordTake r c q.requester k).respondError q.requester q.tag := by
  simp [State.takeRequest, h]

/-- The first branch of R5's classification: a range past the top straddles (R4). -/
theorem classify_past_top (h : 0xFFFFFFFC < q.addr.toNat + 4 * (q.count - 1)) :
    s.classify q = .straddle := if_pos h

/-- A pair that no entry holds leaves no other entry when its own is removed (R2, R3). -/
theorem outstanding_without_entered (free : s.pairHeld q.requester q.tag = false) :
    (s.enterOutstanding q).outstanding.filter (fun e => !e.isPair q.requester q.tag) =
      s.outstanding := by
  have others : ∀ e ∈ s.outstanding, (!e.isPair q.requester q.tag) = true := by
    simpa [State.pairHeld] using free
  have own : (⟨q.requester, q.tag, q.dir, q.count⟩ : OutEntry).isPair q.requester q.tag = true := by
    simp [OutEntry.isPair]
  simp only [State.enterOutstanding, List.filter_append, List.filter_eq_self.2 others]
  simp [own]

/-- An accepted request answered ERROR after a report: its entry is gone, and the answer and the report
are left. -/
theorem respondError_of_reportsOnly {u : State} (taken : s.takesIn q)
    (report : ReportsOnly (s.enterOutstanding q) u) :
    u.respondError q.requester q.tag = { s with
      upResponses := s.upResponses ++ [⟨q.requester, q.tag, .error, []⟩]
      rings := u.rings
      globalFlags := u.globalFlags
      driver := u.driver } := by
  obtain ⟨-, -, free⟩ := taken
  conv_lhs => rw [report]
  simp only [State.respondError, State.respond, State.sendUp, outstanding_without_entered free]
  rfl

end

/-! ## Downstream outcomes of PASS requests (R14, R15, R18) -/

section

variable {s : State} {i : DTag} {q : Requester} {u : UTag} {g : BitVec 8} {timeout : Timer}

theorem exec_downstreamResponse_busy {o : Owner} (up : s.resetN = true)
    (busy : s.tags[i] = .busy o q u g timeout) (status : Status) (data : List Word) :
    exec (.downstreamResponse i status data) s =
      .next ((s.setTag i .free).deliver o q u g status data) := by
  show execDownstreamResponse i status data s = _
  simp only [execDownstreamResponse, State.whileUp, up, if_true, State.matchResponse, busy]

theorem exec_responseTimeout_busy {o : Owner} (up : s.resetN = true)
    (busy : s.tags[i] = .busy o q u g timeout) (due : timeout.due s.timebase = true) :
    exec (.responseTimeout i) s =
      .next ((s.setTag i (.stale (some (armTimer s.timebase s.downTimeout.toNat)))).deliver
        o q u g .error []) := by
  show execResponseTimeout i s = _
  simp only [execResponseTimeout, State.whileUp, up, if_true, State.timeoutTag, busy, due]

theorem respond_eq_answered (s : State) (q : Requester) (u : UTag) (status : Status)
    (data : List Word) : s.respond q u status data = s.answered [⟨q, u, status, data⟩] := by
  simp [State.respond, State.answered, State.sendUp, OutEntry.isPair]

theorem passData_ok {d : OutEntry} (entry : s.outstanding.find? (fun e => e.isPair q u) = some d)
    (data : List Word) : s.passData q u .ok data = if d.dir = .read then data else [] := by
  obtain ⟨_, _, dir, _⟩ := d
  cases dir <;> simp [State.passData, entry]

theorem passData_error (s : State) (q : Requester) (u : UTag) (data : List Word) :
    s.passData q u .error data = [] := by
  simp [State.passData]

/-- An ERROR outcome of a PASS request carries no data. -/
theorem deliver_pass_error (s : State) (q : Requester) (u : UTag) (g : BitVec 8) (data : List Word) :
    s.deliver .pass q u g .error data = s.answered [⟨q, u, .error, []⟩] := by
  simp only [State.deliver, passData_error, respond_eq_answered]

/-- An OK outcome of a PASS request carries the words returned, on a READ. -/
theorem deliver_pass_ok {d : OutEntry}
    (entry : s.outstanding.find? (fun e => e.isPair q u) = some d) (data : List Word) :
    s.deliver .pass q u g .ok data =
      s.answered [⟨q, u, .ok, if d.dir = .read then data else []⟩] := by
  simp only [State.deliver, passData_ok entry, respond_eq_answered]

end

/-! ## The obligations -/

/-- Settles O9: a range past the top is the first branch of `classify`; STRADDLE and GUARDED_WRITE each make
one report and one answer. -/
theorem straddlesAndGuardedWritesAreRefused : Obligations.StraddlesAndGuardedWritesAreRefused := by
  refine ⟨fun s q => classify_past_top, fun s q taken straddle => ?_,
    fun s q r taken guarded => ?_⟩
  · exact ⟨_, exec_upstreamRequest_straddle taken straddle,
      respondError_of_reportsOnly taken (reportsOnly_raiseGlobal _ _)⟩
  · refine ⟨_, exec_upstreamRequest_guardedWrite taken guarded, ?_, fun p other => ?_,
      respondError_of_reportsOnly taken (reportsOnly_raise _ _ _)⟩
    · exact ring_raise_self (s.enterOutstanding q) r .guardHit
    · exact (inner_raise (s.enterOutstanding q) r .guardHit).others p other

/-- Settles O11: each cause of R9 reports PUT_FAULT on side PUT and TAKE_FAULT on side TAKE. -/
theorem apertureRefusalIsRecorded : Obligations.ApertureRefusalIsRecorded := by
  refine ⟨fun s q r k c taken put refused => ?_, fun s q r k c taken take refused => ?_⟩
  · obtain ⟨flag, counter⟩ := put_report_of_apertureCause (apertureCause_of_putCheck refused)
    have recorded := ring_recordPut_self (s.enterOutstanding q) r c q.requester k
    have run := exec_upstreamRequest_put taken put
    rw [putRequest_of_refused (s := s.enterOutstanding q) refused] at run
    refine ⟨_, run, ?_, fun p other => ?_,
      respondError_of_reportsOnly taken (reportsOnly_recordPut _ _ _ _ _)⟩
    · rw [flag, counter] at recorded
      exact recorded
    · exact (inner_recordPut (s.enterOutstanding q) r c q.requester k).others p other
  · obtain ⟨flag, counter⟩ := take_report_of_apertureCause (apertureCause_of_takeCheckCause refused)
    have recorded := ring_recordTake_self (s.enterOutstanding q) r c q.requester k
    have run := exec_upstreamRequest_take taken take
    rw [takeRequest_of_refused (s := s.enterOutstanding q) refused] at run
    refine ⟨_, run, ?_, fun p other => ?_,
      respondError_of_reportsOnly taken (reportsOnly_recordTake _ _ _ _ _)⟩
    · rw [flag, counter] at recorded
      exact recorded
    · exact (inner_recordTake (s.enterOutstanding q) r c q.requester k).others p other

/-- Settles O12: the request's class hands it down, and an outcome changes the tag's entry and then answers
from the outstanding-request table, which that change leaves. -/
theorem passTrafficGoesThrough : Obligations.PassTrafficGoesThrough := by
  refine ⟨fun s q taken pass => ⟨_, exec_upstreamRequest_pass taken pass⟩,
    fun s i q u g timeout d up busy entry => ⟨fun data => ?_, fun data => ?_, fun due => ?_⟩⟩
  · rw [exec_downstreamResponse_busy up busy, deliver_pass_ok (s := s.setTag i .free) entry]
    rfl
  · rw [exec_downstreamResponse_busy up busy, deliver_pass_error]
    rfl
  · rw [exec_responseTimeout_busy up busy due, deliver_pass_error]
    rfl

end Sys2Proof.Laws

/-! PROOFS. The reads that an engine answers at once (R11, R50): the fields of a packed word, the status word of
table 3.2, and a request that is answered in the step that accepts it; with O13. -/

namespace Sys2Proof.Laws

open Sys2Proof.Machine

/-! ## Packed words -/

theorem packBits_concat (fields : List (Nat × Nat)) (w v : Nat) :
    packBits (fields ++ [(w, v)]) = packBits fields * 2 ^ w + v % 2 ^ w := by
  simp [packBits, List.foldl_append]

/-- A field lies above the widths of the fields that follow it. -/
theorem packBits_div_mod (before after : List (Nat × Nat)) (w v : Nat) :
    packBits (before ++ (w, v) :: after) / 2 ^ (after.map Prod.fst).sum % 2 ^ w = v % 2 ^ w := by
  induction after using List.reverseRecOn with
  | nil => simp [packBits_concat, Nat.mul_add_mod_self_right]
  | append_singleton after last ih =>
    obtain ⟨u, d⟩ := last
    have below : d % 2 ^ u < 2 ^ u := Nat.mod_lt _ (Nat.two_pow_pos u)
    have shifted : packBits ((before ++ (w, v) :: after) ++ [(u, d)]) / 2 ^ u =
        packBits (before ++ (w, v) :: after) := by
      rw [packBits_concat, Nat.mul_comm, Nat.mul_add_div (Nat.two_pow_pos u),
        Nat.div_eq_of_lt below, Nat.add_zero]
    calc packBits (before ++ (w, v) :: (after ++ [(u, d)])) /
            2 ^ ((after ++ [(u, d)]).map Prod.fst).sum % 2 ^ w
        = packBits ((before ++ (w, v) :: after) ++ [(u, d)]) / 2 ^ u /
            2 ^ (after.map Prod.fst).sum % 2 ^ w := by
          simp [Nat.div_div_eq_div_mul, Nat.pow_add, Nat.mul_comm]
      _ = v % 2 ^ w := by rw [shifted, ih]

/-- Field `i` of a packed word, read at its place, is its value. -/
theorem extractLsb'_packBits {fields : List (Nat × Nat)} {n lo w v : Nat} (i : Nat)
    (field : fields[i]? = some (w, v)) (place : ((fields.drop (i + 1)).map Prod.fst).sum = lo)
    (fits : lo + w ≤ n) :
    (BitVec.ofNat n (packBits fields)).extractLsb' lo w = BitVec.ofNat w v := by
  obtain ⟨inside, value⟩ := List.getElem?_eq_some_iff.1 field
  have split : fields = fields.take i ++ (w, v) :: fields.drop (i + 1) := by
    rw [← value, List.getElem_cons_drop, List.take_append_drop]
  have read : packBits fields / 2 ^ lo % 2 ^ w = v % 2 ^ w := by
    rw [split, ← place]
    exact packBits_div_mod _ _ w v
  apply BitVec.eq_of_toNat_eq
  obtain ⟨above, rfl⟩ := Nat.exists_eq_add_of_le fits
  rw [BitVec.extractLsb'_toNat, BitVec.toNat_ofNat, BitVec.toNat_ofNat, Nat.shiftRight_eq_div_pow,
    Nat.add_assoc, Nat.pow_add, Nat.mod_mul_right_div_self, Nat.pow_add, Nat.mod_mul_right_mod, read]

/-! ## The status word (table 3.2) -/

/-- The retained slot takes a position of its own where it is not the in-take slot (R43, R126). -/
theorem retainedAlone_iff (x : Ring) :
    x.retainedAlone = true ↔ x.config.kind = .paced ∧ x.retained = true ∧
      ¬(x.take.record.present = true ∧
        x.take.record.position = (x.t + x.config.slots - 1) % x.config.slots) := by
  simp [Ring.retainedAlone, Ring.retainedPosition, and_assoc, imp_iff_not_or]

theorem freePositions_eq (x : Ring) :
    x.freePositions = x.config.slots - x.occ - bit x.take.record.present - bit x.put.slotOpen -
      if x.config.kind = .paced ∧ x.retained = true ∧
          ¬(x.take.record.present = true ∧
            x.take.record.position = (x.t + x.config.slots - 1) % x.config.slots) then 1
      else 0 :=
  congrArg (HSub.hSub _) (if_congr (retainedAlone_iff x) rfl rfl)

/-- The rows of table 3.2, most significant first. -/
theorem statusWord_fields (x : Ring) :
    x.statusWord.extractLsb' 29 3 = BitVec.ofNat 3 x.state.code ∧
    x.statusWord.extractLsb' 26 3 = BitVec.ofNat 3 x.align.state.code ∧
    x.statusWord.extractLsb' 24 2 = BitVec.ofNat 2 x.paced.code ∧
    x.statusWord.extractLsb' 23 1 = BitVec.ofNat 1 (bit x.take.record.present) ∧
    x.statusWord.extractLsb' 22 1 = BitVec.ofNat 1 (bit x.put.slotOpen) ∧
    x.statusWord.extractLsb' 11 11 = BitVec.ofNat 11 x.occ ∧
    x.statusWord.extractLsb' 0 11 = BitVec.ofNat 11 x.freePositions := by
  unfold Ring.statusWord
  refine ⟨extractLsb'_packBits 0 rfl rfl ?_, extractLsb'_packBits 1 rfl rfl ?_,
    extractLsb'_packBits 2 rfl rfl ?_, extractLsb'_packBits 3 rfl rfl ?_,
    extractLsb'_packBits 4 rfl rfl ?_, extractLsb'_packBits 5 rfl rfl ?_,
    extractLsb'_packBits 6 rfl rfl ?_⟩ <;> decide

theorem ofNat_bit (b : Bool) : BitVec.ofNat 1 (bit b) = BitVec.ofBool b := by
  cases b <;> rfl

/-! ## Requests answered in the step that accepts them -/

section

variable {s : State} {q : UpRequest} {r : RingId} {k : Nat}

/-- The entry of a request answered as it is accepted comes and goes in the same step (R2). -/
theorem respond_enterOutstanding (taken : s.takesIn q) (status : Status) (data : List Word) :
    (s.enterOutstanding q).respond q.requester q.tag status data =
      { s with upResponses := s.upResponses ++ [⟨q.requester, q.tag, status, data⟩] } := by
  obtain ⟨-, -, free⟩ := taken
  simp only [State.respond, State.sendUp, outstanding_without_entered free]
  rfl

theorem putRequest_of_passed (passed : (s.ring r).putCheck q k = none) :
    s.putRequest r q k = s.admitPut r q k := by
  simp [State.putRequest, passed]

theorem takeRequest_of_passed (passed : (s.ring r).takeCheckCause q k = none) :
    s.takeRequest r q k = s.admitTake r q k := by
  simp [State.takeRequest, passed]

/-- R9 lets no read of the put aperture pass but that of STATUS (R10). -/
theorem admitPut_read (read : q.dir = .read) :
    s.admitPut r q k = s.respond q.requester q.tag .ok [(s.ring r).statusWord] := by
  simp [State.admitPut, read]

theorem admitTake_status :
    s.admitTake r q ((s.ring r).config.slotWords + 1) =
      s.respond q.requester q.tag .ok [(s.ring r).statusWord] := by
  simp [State.admitTake]

theorem admitTake_unused (unused : (s.ring r).config.slotWords + 1 < k) :
    s.admitTake r q k = s.respond q.requester q.tag .ok [(s.ring r).config.fillWord] := by
  simp [State.admitTake, State.respondFill, unused, unused.ne']

theorem exec_putStatusRead (taken : s.takesIn q) (read : q.dir = .read)
    (put : s.classify q = .put r k) (passed : (s.ring r).putCheck q k = none) :
    exec (.upstreamRequest q) s = .next { s with
      upResponses := s.upResponses ++ [⟨q.requester, q.tag, .ok, [(s.ring r).statusWord]⟩] } := by
  rw [exec_upstreamRequest_put taken put, putRequest_of_passed (s := s.enterOutstanding q) passed,
    admitPut_read read, respond_enterOutstanding taken]
  rfl

theorem exec_takeStatusRead (taken : s.takesIn q)
    (take : s.classify q = .take r ((s.ring r).config.slotWords + 1))
    (passed : (s.ring r).takeCheckCause q ((s.ring r).config.slotWords + 1) = none) :
    exec (.upstreamRequest q) s = .next { s with
      upResponses := s.upResponses ++ [⟨q.requester, q.tag, .ok, [(s.ring r).statusWord]⟩] } := by
  have admitted := admitTake_status (s := s.enterOutstanding q) (q := q) (r := r)
  rw [respond_enterOutstanding taken] at admitted
  rw [exec_upstreamRequest_take taken take, takeRequest_of_passed (s := s.enterOutstanding q) passed]
  exact congrArg Host.Outcome.next admitted

theorem exec_takeUnusedRead (taken : s.takesIn q) (take : s.classify q = .take r k)
    (unused : (s.ring r).config.slotWords + 1 < k)
    (passed : (s.ring r).takeCheckCause q k = none) :
    exec (.upstreamRequest q) s = .next { s with
      upResponses := s.upResponses ++ [⟨q.requester, q.tag, .ok, [(s.ring r).config.fillWord]⟩] } := by
  rw [exec_upstreamRequest_take taken take, takeRequest_of_passed (s := s.enterOutstanding q) passed,
    admitTake_unused (s := s.enterOutstanding q) unused, respond_enterOutstanding taken]
  rfl

end

/-! ## The obligation -/

/-- Settles O13: both sides answer STATUS with the same word, whose fields are read where they were packed;
the take side answers the offsets above it with the fill word. -/
theorem statusAndUnusedOffsetReads : Obligations.StatusAndUnusedOffsetReads := by
  refine ⟨fun s q r taken read passed => ⟨(s.ring r).statusWord, ?_, ?_⟩,
    fun s q r k taken take unused passed => exec_takeUnusedRead taken take unused passed⟩
  · rcases passed with ⟨put, passed⟩ | ⟨take, passed⟩
    · exact exec_putStatusRead taken read put passed
    · exact exec_takeStatusRead taken take passed
  · rw [← freePositions_eq, ← ofNat_bit, ← ofNat_bit]
    exact statusWord_fields (s.ring r)

end Sys2Proof.Laws

/-! PROOFS. What every step keeps: the kinds of event that a step can be, as one structure, from which
an invariant follows for every command. -/

namespace Sys2Proof.Laws

open Sys2Proof.Machine

/-! ## The kinds of event -/

/-- The predicate is kept by each event that a command can be: by the resets, the link, the Memory Port, the
timers, the commands of the part and what a byte of the management port does. -/
structure KeptByCommands (inv : State → Prop) : Prop where
  poweredOn : ∀ {s}, inv s → ∀ pins, inv (s.poweredOn pins)
  assertReset : ∀ {s}, inv s → inv s.assertReset
  releaseReset : ∀ {s}, inv s → ∀ pins, inv (s.releaseReset pins)
  tick : ∀ {s}, inv s → inv { s with timebase := s.timebase + 1 }
  offer : ∀ {s}, inv s → ∀ q, inv (s.offer q)
  issueHead : ∀ {s}, inv s → inv s.issueHead
  matchResponse : ∀ {s}, inv s → ∀ i status data, inv (s.matchResponse i status data)
  timeoutTag : ∀ {s}, inv s → ∀ i, inv (s.timeoutTag i)
  quarantineTag : ∀ {s}, inv s → ∀ i, inv (s.quarantineTag i)
  putParkExpiry : ∀ {s}, inv s → ∀ r, inv (s.putParkExpiry r)
  takeParkExpiry : ∀ {s}, inv s → ∀ r, inv (s.takeParkExpiry r)
  ageExpiry : ∀ {s}, inv s → ∀ r, inv (s.ageExpiry r)
  searchTimerExpiry : ∀ {s}, inv s → ∀ r, inv (s.searchTimerExpiry r)
  secondBoundary : ∀ {s}, inv s → ∀ r, inv (s.secondBoundary r)
  lateExpiry : ∀ {s}, inv s → ∀ r, inv (s.lateExpiry r)
  settle : ∀ {s}, inv s → ∀ r, inv (s.settle r)
  ringCommand : ∀ {s}, inv s → ∀ r c, inv (s.ringCommand r c)
  softReset : ∀ {s}, inv s → inv s.softReset
  surveySampleOcc : ∀ {s}, inv s → inv s.surveySampleOcc
  modSurvey : ∀ {s}, inv s → ∀ f, inv (s.modSurvey f)
  syncLevel : ∀ {s}, inv s → ∀ level, inv { s with syncLevel := level }
  coalescingTick : ∀ {s}, inv s → inv s.coalescingTick
  endPulse : ∀ {s}, inv s → inv s.endPulse
  modPort : ∀ {s}, inv s → ∀ f, (f s.port).latches = s.port.latches → inv (s.modPort f)
  latch : ∀ {s}, inv s → ∀ f j, inv (s.latch f j)
  clearRingFlags : ∀ {s}, inv s → ∀ r mask, inv (s.clearRingFlags r mask)
  clearGlobalFlags : ∀ {s}, inv s → ∀ mask, inv (s.clearGlobalFlags mask)
  setRingEnables : ∀ {s}, inv s → ∀ r en, inv (s.setRingEnables r en)
  setGlobalEnables : ∀ {s}, inv s → ∀ en, inv (s.setGlobalEnables en)
  setPeriod : ∀ {s}, inv s → ∀ p, inv (s.setPeriod p)
  downTimeout : ∀ {s}, inv s → ∀ v, inv { s with downTimeout := v }
  configure : ∀ {s}, inv s → ∀ r c, (s.ring r).state = .idle →
    inv (s.modRing r (fun x => { x with config := c }))

namespace KeptByCommands

variable {inv : State → Prop} (keeps : KeptByCommands inv) {s : State}

include keeps

/-! ## The survey's commands and events -/

theorem surveyBegin (h : inv s) : inv s.surveyBegin := by
  unfold State.surveyBegin
  split
  · exact keeps.surveySampleOcc (keeps.modSurvey h _)
  all_goals exact keeps.modSurvey h _

theorem globalEffect (h : inv s) (c : GlobalCommand) : inv (s.globalEffect c) := by
  cases c with
  | softReset => exact keeps.softReset h
  | surveyArm =>
    show inv s.surveyArm
    unfold State.surveyArm
    split
    · exact keeps.surveyBegin h
    all_goals exact h
  | surveyDisarm =>
    show inv s.surveyDisarm
    unfold State.surveyDisarm
    split
    · exact keeps.modSurvey h _
    · exact h

theorem surveyIntervalExpiry (h : inv s) : inv s.surveyIntervalExpiry := by
  unfold State.surveyIntervalExpiry
  dsimp only
  split
  · exact keeps.surveySampleOcc h
  · exact h

theorem surveyHoldoffExpiry (h : inv s) : inv s.surveyHoldoffExpiry := by
  unfold State.surveyHoldoffExpiry
  dsimp only
  split
  · exact keeps.modSurvey h _
  · exact h

theorem syncEdge (h : inv s) (rising : Bool) : inv (s.syncEdge rising) := by
  have level := keeps.syncLevel h rising
  unfold State.syncEdge
  dsimp only
  split
  · split
    · exact keeps.surveySampleOcc level
    · exact keeps.modSurvey level _
  · exact level

theorem syncDelayExpiry (h : inv s) : inv s.syncDelayExpiry := by
  unfold State.syncDelayExpiry
  dsimp only
  split
  · split
    · exact keeps.surveySampleOcc (keeps.modSurvey h _)
    · exact keeps.modSurvey h _
  · exact h

/-! ## The bytes of the management port -/

theorem portAck (h : inv s) : inv s.portAck := keeps.modPort h _ rfl

theorem portNack (h : inv s) : inv s.portNack := keeps.modPort h _ rfl

theorem globalCommand (h : inv s) (c : GlobalCommand) : inv (s.globalCommand c) :=
  keeps.modPort (keeps.globalEffect h c) _ rfl

theorem commandByte (h : inv s) (f : RegField) (b : Byte) : inv (s.commandByte f b) := by
  unfold State.commandByte
  split
  · split
    · exact keeps.portAck (keeps.globalCommand h _)
    · exact keeps.portNack h
  · split
    · exact keeps.portAck (keeps.ringCommand h _ _)
    · exact keeps.portNack h
  · exact keeps.portNack h

theorem writeGlobal (h : inv s) {g : GlobalReg} {v : Nat} {t : State}
    (written : s.writeGlobal g v = some t) : inv t := by
  cases g <;> simp only [State.writeGlobal, reduceCtorEq, Option.some.injEq] at written
  case scratch => exact written ▸ keeps.modPort h _ rfl
  case period => exact written ▸ keeps.setPeriod h _
  case downTimeout =>
    split_ifs at written
    cases written
    exact keeps.downTimeout h _

/-- A value is written to a ring's or the survey's field only as its class allows. -/
theorem writeField (h : inv s) {f : RegField} {v : Nat} {t : State}
    (ringFields : ∀ r x, f.reg = .ring r x → f.access = .idle)
    (written : s.writeField f v = some t) : inv t := by
  unfold State.writeField at written
  split_ifs at written with allowed
  unfold State.writeReg at written
  split at written
  · cases written
  · exact keeps.writeGlobal h written
  · rename_i r x isRing
    obtain ⟨c, -, rfl⟩ := Option.map_eq_some_iff.1 written
    refine keeps.configure h r c ?_
    simpa [State.classAllows, ringFields r x isRing, State.ownerIdle, isRing] using allowed
  · obtain ⟨u, -, rfl⟩ := Option.map_eq_some_iff.1 written
    exact keeps.modSurvey h _

end KeptByCommands

/-! ## The fields of the map -/

/-- The fields of class RW: the page register, and three of page 0 (table 11.3). -/
theorem reg_of_access_rw : ∀ p : Fin 18, ∀ f ∈ pageFields p, f.access = .rw →
    f.reg = .page ∨ f.reg = .global .scratch ∨ f.reg = .global .period ∨ f.reg = .global .downTimeout := by
  decide +kernel

/-- No field of a ring is of class RW. -/
theorem access_of_ringField {p : Fin 18} {f : RegField} (mem : f ∈ pageFields p) {r : RingId} {x : RingReg}
    (isRing : f.reg = .ring r x) : f.access ≠ .rw := by
  intro rw
  have := reg_of_access_rw p f mem rw
  simp [isRing] at this

theorem portField_mem {s : State} {f : RegField} (h : s.portField = some f) :
    f ∈ pageFields s.port.page := by
  unfold State.portField fieldAt at h
  exact List.mem_of_find?_eq_some h

namespace KeptByCommands

variable {inv : State → Prop} (keeps : KeptByCommands inv) {s : State}

include keeps

theorem wholeValue (h : inv s) {f : RegField}
    (ringFields : ∀ r x, f.reg = .ring r x → f.access = .idle) (v : Nat) : inv (s.wholeValue f v) := by
  unfold State.wholeValue
  split
  · rename_i written
    exact keeps.portAck (keeps.writeField h ringFields written)
  · exact keeps.portNack h

theorem fieldByte (h : inv s) {f : RegField} (mem : f ∈ pageFields s.port.page) (j : Nat) (b : Byte) :
    inv (s.fieldByte f j b) := by
  have whole : (f.access = .rw ∨ f.access = .idle) → ∀ v, inv (s.wholeValue f v) := fun access v =>
    keeps.wholeValue h
      (fun r x isRing => access.resolve_left (access_of_ringField mem isRing)) v
  have value : (f.access = .rw ∨ f.access = .idle) →
      inv (if f.reg = .page then s.pageByte b
        else if f.bytes = 1 then s.wholeValue f b.toNat else s.stagedByte f j b) := by
    intro access
    split
    · unfold State.pageByte
      split
      · exact keeps.modPort h _ rfl
      · exact keeps.portNack h
    · split
      · exact whole access _
      · unfold State.stagedByte
        split
        · exact keeps.portNack h
        · split
          · exact whole access _
          · split
            · exact keeps.modPort h _ rfl
            · exact keeps.portNack h
  unfold State.fieldByte
  split
  · exact keeps.portNack h
  · exact keeps.commandByte h f b
  · refine keeps.portAck ?_
    unfold State.clearByte
    split
    · exact keeps.clearGlobalFlags h _
    · exact keeps.clearRingFlags h _ _
    · exact h
  · refine keeps.portAck ?_
    unfold State.enableByte
    split
    · exact keeps.setGlobalEnables h _
    · exact keeps.setRingEnables h _ _
    · exact h
  · exact value (.inl ‹_›)
  · exact value (.inr ‹_›)

theorem writeByte (h : inv s) (b : Byte) : inv (s.writeByte b) := by
  unfold State.writeByte State.dataByte
  split
  · split
    · rename_i stands
      exact keeps.fieldByte h (portField_mem stands) _ b
    · exact keeps.portNack h
  · exact h

theorem carriedBy (h : inv s) (stood : Bool) : inv (s.carriedBy stood) := by
  unfold State.carriedBy
  split
  · exact keeps.portAck h
  · exact h

theorem readByte (h : inv s) (ack : Bool) : inv (s.readByte ack) := by
  unfold State.readByte
  split
  · split
    · exact keeps.modPort h _ rfl
    · exact keeps.modPort (keeps.latch h _ _) _ rfl
  · exact h

theorem subaddress (h : inv s) (b : Byte) : inv (s.subaddress b) := by
  unfold State.subaddress
  split
  · exact keeps.modPort h _ rfl
  · exact h

theorem address (h : inv s) (addr : BitVec 7) (read : Bool) : inv (s.address addr read) := by
  refine keeps.modPort h _ ?_
  dsimp only
  split <;> rfl

omit keeps in
theorem whileUp {f : State → State} (h : inv s) (hf : inv (f s)) : inv (s.whileUp f) := by
  unfold State.whileUp
  split
  · exact hf
  · exact h

/-! ## Every command -/

theorem upstreamRequest (h : inv s) {q : UpRequest} {t : State}
    (run : Machine.exec (.upstreamRequest q) s = .next t) : inv t := by
  change execUpstreamRequest q s = _ at run
  unfold execUpstreamRequest at run
  split_ifs at run
  cases run
  exact keeps.offer h q

/-- Each command is one of the events, or leaves the state while RESET_N is low. -/
theorem exec (h : inv s) {c : Instr} {t : State} (run : Machine.exec c s = .next t) : inv t := by
  by_cases request : ∃ q, c = .upstreamRequest q
  · obtain ⟨q, rfl⟩ := request
    exact keeps.upstreamRequest h run
  cases c
  case upstreamRequest q => exact absurd ⟨q, rfl⟩ request
  all_goals
    injection run with run
    subst run
  case powerOn pins => exact keeps.poweredOn h pins
  case resetNAssert => exact keeps.assertReset h
  case resetNRelease pins =>
    split
    · exact h
    · exact keeps.releaseReset h pins
  case timebaseTick => exact whileUp h (keeps.tick h)
  case downstreamIssue => exact whileUp h (keeps.issueHead h)
  case downstreamResponse i status data => exact whileUp h (keeps.matchResponse h i status data)
  case responseTimeout i => exact whileUp h (keeps.timeoutTag h i)
  case quarantineExpiry i => exact whileUp h (keeps.quarantineTag h i)
  case putParkExpiry r => exact whileUp h (keeps.putParkExpiry h r)
  case takeParkExpiry r => exact whileUp h (keeps.takeParkExpiry h r)
  case ageExpiry r => exact whileUp h (keeps.ageExpiry h r)
  case searchTimerExpiry r => exact whileUp h (keeps.searchTimerExpiry h r)
  case oneSecondBoundary r => exact whileUp h (keeps.secondBoundary h r)
  case lateTimerExpiry r => exact whileUp h (keeps.lateExpiry h r)
  case entryToIdle r => exact whileUp h (keeps.settle h r)
  case start r => exact whileUp h (keeps.carriedBy (keeps.ringCommand h r _) _)
  case stop r => exact whileUp h (keeps.carriedBy (keeps.ringCommand h r _) _)
  case abort r => exact whileUp h (keeps.carriedBy (keeps.ringCommand h r _) _)
  case flush r => exact whileUp h (keeps.carriedBy (keeps.ringCommand h r _) _)
  case snapshot r => exact whileUp h (keeps.carriedBy (keeps.ringCommand h r _) _)
  case softReset => exact whileUp h (keeps.carriedBy (keeps.globalCommand h _) _)
  case surveyArm => exact whileUp h (keeps.carriedBy (keeps.globalCommand h _) _)
  case surveyDisarm => exact whileUp h (keeps.carriedBy (keeps.globalCommand h _) _)
  case surveyIntervalExpiry => exact whileUp h (keeps.surveyIntervalExpiry h)
  case syncEdge rising => exact keeps.syncEdge h rising
  case syncDelayExpiry => exact whileUp h (keeps.syncDelayExpiry h)
  case holdoffExpiry => exact whileUp h (keeps.surveyHoldoffExpiry h)
  case coalescingTick => exact whileUp h (keeps.coalescingTick h)
  case pulseEnd => exact whileUp h (keeps.endPulse h)
  case addressByte addr read => exact keeps.address h addr read
  case stopCondition => exact keeps.modPort h _ rfl
  case subaddressByte b => exact whileUp h (keeps.subaddress h b)
  case fieldReadLatch ack => exact whileUp h (keeps.readByte h ack)
  all_goals exact whileUp h (keeps.writeByte h _)

end KeptByCommands

/-- The predicate is kept by the queue's change too, so by every step. -/
structure KeptByEvents (inv : State → Prop) : Prop extends KeptByCommands inv where
  queue : ∀ {s}, inv s → ∀ l, inv { s with pending := l }

theorem KeptByEvents.everyStep {inv : State → Prop} (keeps : KeptByEvents inv) : KeptByEveryStep inv := by
  intro s t h run
  unfold step at run
  split at run
  · cases run
    exact h
  · exact keeps.exec (keeps.queue h _) run

end Sys2Proof.Laws

/-! PROOFS. The invariants that every event of a ring keeps because it is Moved: the stores (O53), the
outstanding-request table (O54) and the interrupt line (O57). -/

namespace Sys2Proof.Laws

open Sys2Proof.Machine

/-! ## Events of the whole part that are Moved of a ring -/

theorem moved_ringCommand_or_snapshot (s : State) (r : RingId) (c : RingCommand) :
    Moved r s (s.ringCommand r c) ∨
      s.ringCommand r c = (s.snapshotRing r).modRing r
        (fun x => { x with command := 5, result := .accepted }) := by
  by_cases h : c = .snapshot
  · subst h
    exact .inr rfl
  · exact .inl (moved_ringCommand s r c h)

/-- An invariant that every Moved keeps needs, of the events, only what no Moved describes. -/
structure KeptByMoved (inv : State → Prop) : Prop where
  moved : ∀ {s t r}, Moved r s t → inv s → inv t
  poweredOn : ∀ {s}, inv s → ∀ pins, inv (s.poweredOn pins)
  assertReset : ∀ {s}, inv s → inv s.assertReset
  releaseReset : ∀ {s}, inv s → ∀ pins, inv (s.releaseReset pins)
  tick : ∀ {s}, inv s → inv { s with timebase := s.timebase + 1 }
  sendUp : ∀ {s}, inv s → ∀ p, inv (s.sendUp p)
  enterOutstanding : ∀ {s}, inv s → ∀ q, s.accepts q.requester = true →
    s.pairHeld q.requester q.tag = false → inv (s.enterOutstanding q)
  setTag : ∀ {s}, inv s → ∀ i e, inv (s.setTag i e)
  queues : ∀ {s}, inv s → ∀ l d, inv { s with issueQueue := l, downRequests := d }
  snapshotRing : ∀ {s}, inv s → ∀ r, inv (s.snapshotRing r)
  zeroEvents : ∀ {s}, inv s → inv s.zeroEvents
  modSurvey : ∀ {s}, inv s → ∀ f, inv (s.modSurvey f)
  syncLevel : ∀ {s}, inv s → ∀ level, inv { s with syncLevel := level }
  coalescingTick : ∀ {s}, inv s → inv s.coalescingTick
  endPulse : ∀ {s}, inv s → inv s.endPulse
  modPort : ∀ {s}, inv s → ∀ f, (f s.port).latches = s.port.latches → inv (s.modPort f)
  latch : ∀ {s}, inv s → ∀ f j, inv (s.latch f j)
  clearRingFlags : ∀ {s}, inv s → ∀ r mask, inv (s.clearRingFlags r mask)
  clearGlobalFlags : ∀ {s}, inv s → ∀ mask, inv (s.clearGlobalFlags mask)
  setRingEnables : ∀ {s}, inv s → ∀ r en, inv (s.setRingEnables r en)
  setGlobalEnables : ∀ {s}, inv s → ∀ en, inv (s.setGlobalEnables en)
  setPeriod : ∀ {s}, inv s → ∀ p, inv (s.setPeriod p)
  downTimeout : ∀ {s}, inv s → ∀ v, inv { s with downTimeout := v }
  configure : ∀ {s}, inv s → ∀ r c, (s.ring r).state = .idle →
    inv (s.modRing r (fun x => { x with config := c }))

namespace KeptByMoved

variable {inv : State → Prop} (keeps : KeptByMoved inv) {s : State}

include keeps

theorem inner {r : RingId} {t : State} (h : Inner r s t) (hs : inv s) : inv t := keeps.moved h.moved hs

theorem deliver (h : inv s) (o : Owner) (q : Requester) (u : UTag) (g : BitVec 8) (status : Status)
    (data : List Word) : inv (s.deliver o q u g status data) := by
  cases o with
  | pass => exact keeps.inner (inner_respond s 0 q u status _) h
  | put r => exact keeps.moved (moved_deliver s r (.put r) q u g status data (by simp [Owner.ofRing])) h
  | take r => exact keeps.moved (moved_deliver s r (.take r) q u g status data (by simp [Owner.ofRing])) h

theorem dispatchRequest (h : inv s) (q : UpRequest) : inv (s.dispatchRequest q) := by
  unfold State.dispatchRequest
  split
  · exact keeps.queues h _ s.downRequests
  · exact keeps.inner ((inner_raiseGlobal s 0 _).trans (inner_respondError _ 0 _ _)) h
  · exact keeps.inner ((inner_raise s _ _).trans (inner_respondError _ _ _ _)) h
  · exact keeps.moved (moved_putRequest s _ q _) h
  · exact keeps.moved (moved_takeRequest s _ q _) h

theorem offer (h : inv s) (q : UpRequest) : inv (s.offer q) := by
  unfold State.offer
  split
  · exact h
  · rename_i accepted
    split
    · exact keeps.inner (inner_raiseGlobal _ 0 _) (keeps.sendUp h _)
    · rename_i free
      exact keeps.dispatchRequest
        (keeps.enterOutstanding h q (by simpa using accepted) (by simpa using free)) q

theorem issueHead (h : inv s) : inv s.issueHead := by
  unfold State.issueHead
  split
  · exact keeps.queues (keeps.setTag h _ _) _ _
  · exact h

theorem ringCommand (h : inv s) (r : RingId) (c : RingCommand) : inv (s.ringCommand r c) := by
  rcases moved_ringCommand_or_snapshot s r c with moved | snapshot
  · exact keeps.moved moved h
  · rw [snapshot]
    exact keeps.moved (moved_modRing _ r _ rfl rfl) (keeps.snapshotRing h r)

theorem softAbort (h : inv s) (r : RingId) : inv (s.softAbort r) := by
  unfold State.softAbort
  split
  · exact keeps.moved (moved_abortRing s r) h
  · exact h

theorem softReset (h : inv s) : inv s.softReset := by
  unfold State.softReset
  have start := keeps.modSurvey (keeps.zeroEvents (keeps.modPort h
    (fun p => { p with resetCause := .soft }) rfl)) Survey.stopped
  exact List.foldlRecOn allRings State.softAbort start (fun _ kept r _ => keeps.softAbort kept r)

/-- With the rest of the events, it is an invariant of every command. -/
theorem commands : KeptByCommands inv where
  poweredOn := keeps.poweredOn
  assertReset := keeps.assertReset
  releaseReset := keeps.releaseReset
  tick := keeps.tick
  offer := keeps.offer
  issueHead := keeps.issueHead
  matchResponse := fun {s} h i status data => by
    unfold State.matchResponse
    split
    · exact h
    · exact keeps.setTag h _ _
    · exact keeps.deliver (keeps.setTag h _ _) _ _ _ _ _ _
  timeoutTag := fun {s} h i => by
    unfold State.timeoutTag
    split
    · exact h
    · exact h
    · split
      · exact keeps.deliver (keeps.setTag h _ _) _ _ _ _ _ _
      · exact h
  quarantineTag := fun {s} h i => by
    unfold State.quarantineTag
    split
    · exact h
    · exact h
    · split
      · exact keeps.setTag h _ _
      · exact h
  putParkExpiry := fun {s} h r => keeps.moved (moved_putParkExpiry s r) h
  takeParkExpiry := fun {s} h r => keeps.moved (moved_takeParkExpiry s r) h
  ageExpiry := fun {s} h r => keeps.moved (moved_ageExpiry s r) h
  searchTimerExpiry := fun {s} h r => keeps.inner (inner_searchTimerExpiry s r) h
  secondBoundary := fun {s} h r => keeps.moved (moved_secondBoundary s r) h
  lateExpiry := fun {s} h r => keeps.moved (moved_lateExpiry s r) h
  settle := fun {s} h r => keeps.moved (moved_settle s r) h
  ringCommand := keeps.ringCommand
  softReset := keeps.softReset
  surveySampleOcc := fun {s} h => keeps.inner (inner_surveySampleOcc s 0) h
  modSurvey := keeps.modSurvey
  syncLevel := keeps.syncLevel
  coalescingTick := keeps.coalescingTick
  endPulse := keeps.endPulse
  modPort := keeps.modPort
  latch := keeps.latch
  clearRingFlags := keeps.clearRingFlags
  clearGlobalFlags := keeps.clearGlobalFlags
  setRingEnables := keeps.setRingEnables
  setGlobalEnables := keeps.setGlobalEnables
  setPeriod := keeps.setPeriod
  downTimeout := keeps.downTimeout
  configure := keeps.configure

theorem everyStep (queue : ∀ {s}, inv s → ∀ l, inv { s with pending := l }) : KeptByEveryStep inv :=
  KeptByEvents.everyStep { keeps.commands with queue := queue }

end KeptByMoved

/-! ## What the Event Unit's operations leave -/

/-- From `s` to `t` only rings, global flags and enables, the period, its timer and the driver change. -/
def EventsOnly (s t : State) : Prop :=
  t = { s with
    rings := t.rings
    globalFlags := t.globalFlags
    globalEnables := t.globalEnables
    period := t.period
    coalTimer := t.coalTimer
    driver := t.driver }

theorem eventsOnly_releaseIfNone (s : State) : EventsOnly s s.releaseIfNone := by
  unfold State.releaseIfNone
  split <;> rfl

theorem eventsOnly_afterClear (s : State) : EventsOnly s s.afterClear := by
  unfold State.afterClear
  split
  · split <;> rfl
  · rfl

theorem eventsOnly_assertNotice (s : State) : EventsOnly s s.assertNotice := by
  unfold State.assertNotice
  split <;> rfl

theorem EventsOnly.trans {s t u : State} (a : EventsOnly s t) (b : EventsOnly t u) : EventsOnly s u := by
  unfold EventsOnly at *
  rw [b, a]

theorem eventsOnly_zeroEvents (s : State) : EventsOnly s s.zeroEvents := by
  refine EventsOnly.trans ?_ (eventsOnly_releaseIfNone _)
  exact List.foldlRecOn (motive := EventsOnly s) allRings _ rfl (fun t kept r _ => EventsOnly.trans kept rfl)

theorem eventsOnly_coalescingTick (s : State) : EventsOnly s s.coalescingTick := by
  unfold State.coalescingTick
  split
  · exact EventsOnly.trans (by exact rfl) (eventsOnly_assertNotice _)
  · rfl

theorem eventsOnly_endPulse (s : State) : EventsOnly s s.endPulse := by
  unfold State.endPulse
  split
  · rfl
  · rfl
  · split <;> rfl

theorem eventsOnly_setPeriod (s : State) (p : BitVec 8) : EventsOnly s (s.setPeriod p) := by
  unfold State.setPeriod
  dsimp only
  split
  · exact EventsOnly.trans (by exact rfl) (eventsOnly_assertNotice _)
  · rfl

theorem eventsOnly_clearRingFlags (s : State) (r : RingId) (mask : BitVec 18) :
    EventsOnly s (s.clearRingFlags r mask) := EventsOnly.trans (by exact rfl) (eventsOnly_afterClear _)

theorem eventsOnly_clearGlobalFlags (s : State) (mask : BitVec 5) :
    EventsOnly s (s.clearGlobalFlags mask) := EventsOnly.trans (by exact rfl) (eventsOnly_afterClear _)

theorem eventsOnly_setRingEnables (s : State) (r : RingId) (en : BitVec 18) :
    EventsOnly s (s.setRingEnables r en) := EventsOnly.trans (by exact rfl) (eventsOnly_releaseIfNone _)

theorem eventsOnly_setGlobalEnables (s : State) (en : BitVec 5) :
    EventsOnly s (s.setGlobalEnables en) := EventsOnly.trans (by exact rfl) (eventsOnly_releaseIfNone _)

theorem EventsOnly.stamps {s t : State} (h : EventsOnly s t) : t.stamps = s.stamps := by rw [h]
theorem EventsOnly.port {s t : State} (h : EventsOnly s t) : t.port = s.port := by rw [h]
theorem EventsOnly.outstanding {s t : State} (h : EventsOnly s t) : t.outstanding = s.outstanding := by
  rw [h]
theorem EventsOnly.tags {s t : State} (h : EventsOnly s t) : t.tags = s.tags := by rw [h]
theorem EventsOnly.issueQueue {s t : State} (h : EventsOnly s t) : t.issueQueue = s.issueQueue := by
  rw [h]

/-! ## The stores (R44, R175) -/

theorem storesCanonical_congr {s t : State} (stamps : t.stamps = s.stamps)
    (latches : t.port.latches = s.port.latches) (h : StoresCanonical s) : StoresCanonical t := by
  unfold StoresCanonical
  rw [stamps, latches]
  exact h

theorem EventsOnly.storesCanonical {s t : State} (events : EventsOnly s t) (h : StoresCanonical s) :
    StoresCanonical t := storesCanonical_congr events.stamps (by rw [events.port]) h

theorem storesCanonical_reset {t : State} (stamps : t.stamps = []) (latches : t.port.latches = []) :
    StoresCanonical t := by
  unfold StoresCanonical
  rw [stamps, latches]
  exact ⟨sparseWf_nil _, sparseWf_nil _⟩

theorem storesCanonical_latch {s : State} (h : StoresCanonical s) (f : RegField) (j : Nat) :
    StoresCanonical (s.latch f j) := by
  unfold State.latch
  split
  · exact h
  · exact ⟨h.1, sparsePut_wf _ _ _ h.2⟩

theorem keptByMoved_storesCanonical : KeptByMoved StoresCanonical where
  moved := fun moved h => ⟨moved.stampsWf h.1, by rw [moved.port]; exact h.2⟩
  poweredOn := fun _ _ => storesCanonical_reset rfl rfl
  assertReset := fun _ => storesCanonical_reset rfl rfl
  releaseReset := fun h _ => h
  tick := fun h => h
  sendUp := fun h _ => h
  enterOutstanding := fun h _ _ _ => h
  setTag := fun h _ _ => h
  queues := fun h _ _ => h
  snapshotRing := fun h _ => h
  zeroEvents := fun h => (eventsOnly_zeroEvents _).storesCanonical h
  modSurvey := fun h _ => h
  syncLevel := fun h _ => h
  coalescingTick := fun h => (eventsOnly_coalescingTick _).storesCanonical h
  endPulse := fun h => (eventsOnly_endPulse _).storesCanonical h
  modPort := fun {s} h _ latches => storesCanonical_congr (s := s) rfl latches h
  latch := storesCanonical_latch
  clearRingFlags := fun h _ _ => (eventsOnly_clearRingFlags _ _ _).storesCanonical h
  clearGlobalFlags := fun h _ => (eventsOnly_clearGlobalFlags _ _).storesCanonical h
  setRingEnables := fun h _ _ => (eventsOnly_setRingEnables _ _ _).storesCanonical h
  setGlobalEnables := fun h _ => (eventsOnly_setGlobalEnables _ _).storesCanonical h
  setPeriod := fun h _ => (eventsOnly_setPeriod _ _).storesCanonical h
  downTimeout := fun h _ => h
  configure := fun h _ _ _ => h

/-- Settles O53: an event of a ring writes stamps by `sparsePut` and `sparseClear` only, and the port its
latches by `sparsePut`. -/
theorem everyStepKeepsStoresCanonical : Obligations.EveryStepKeepsStoresCanonical :=
  keptByMoved_storesCanonical.everyStep (fun h _ => h)

/-! ## The outstanding-request table (R1 to R3) -/

/-- Fewer entries are as sound. -/
theorem tableSound_of_sublist {s t : State} (sub : t.outstanding.Sublist s.outstanding)
    (h : TableSound s) : TableSound t :=
  ⟨fun q => (sub.countP_le).trans (h.1 q), h.2.sublist sub⟩

theorem tableSound_congr {s t : State} (same : t.outstanding = s.outstanding) (h : TableSound s) :
    TableSound t := tableSound_of_sublist (same ▸ List.Sublist.refl _) h

/-- A request within its requester's limit, whose pair is not held, keeps the table sound. -/
theorem tableSound_enterOutstanding {s : State} (h : TableSound s) (q : UpRequest)
    (accepted : s.accepts q.requester = true) (free : s.pairHeld q.requester q.tag = false) :
    TableSound (s.enterOutstanding q) := by
  obtain ⟨limits, pairs⟩ := h
  have below : s.outstandingOf q.requester < Config.requesterLimit := by
    simp only [State.accepts, Bool.and_eq_true, decide_eq_true_eq] at accepted
    exact accepted.1.2
  have others : ∀ e ∈ s.outstanding, ¬(e.requester = q.requester ∧ e.tag = q.tag) := by
    simpa [State.pairHeld, OutEntry.isPair] using free
  constructor
  · intro p
    have limit := limits p
    unfold State.outstandingOf at *
    by_cases own : q.requester = p
    · subst own
      simpa [State.enterOutstanding, List.countP_append] using below
    · simpa [State.enterOutstanding, List.countP_append, own] using limit
  · exact List.pairwise_append.2 ⟨pairs, List.pairwise_singleton _ _,
      fun a ha b hb => by rw [List.mem_singleton.1 hb]; exact others a ha⟩

theorem keptByMoved_tableSound : KeptByMoved TableSound where
  moved := fun moved h => tableSound_of_sublist moved.outstanding h
  poweredOn := fun _ _ => tableSound_of_sublist (List.nil_sublist _) ‹_›
  assertReset := fun h => tableSound_of_sublist (List.nil_sublist _) h
  releaseReset := fun h _ => h
  tick := fun h => h
  sendUp := fun h _ => h
  enterOutstanding := tableSound_enterOutstanding
  setTag := fun h _ _ => h
  queues := fun h _ _ => h
  snapshotRing := fun h _ => h
  zeroEvents := fun h => tableSound_congr (eventsOnly_zeroEvents _).outstanding h
  modSurvey := fun h _ => h
  syncLevel := fun h _ => h
  coalescingTick := fun h => tableSound_congr (eventsOnly_coalescingTick _).outstanding h
  endPulse := fun h => tableSound_congr (eventsOnly_endPulse _).outstanding h
  modPort := fun h _ _ => h
  latch := fun {s} h f j => tableSound_congr (by unfold State.latch; split <;> rfl) h
  clearRingFlags := fun h _ _ => tableSound_congr (eventsOnly_clearRingFlags _ _ _).outstanding h
  clearGlobalFlags := fun h _ => tableSound_congr (eventsOnly_clearGlobalFlags _ _).outstanding h
  setRingEnables := fun h _ _ => tableSound_congr (eventsOnly_setRingEnables _ _ _).outstanding h
  setGlobalEnables := fun h _ => tableSound_congr (eventsOnly_setGlobalEnables _ _).outstanding h
  setPeriod := fun h _ => tableSound_congr (eventsOnly_setPeriod _ _).outstanding h
  downTimeout := fun h _ => h
  configure := fun h _ _ _ => h

/-- Settles O54: an event of a ring only removes entries, and an accepted request enters one below its
requester's limit with a pair that is not held. -/
theorem everyStepKeepsTheTableSound : Obligations.EveryStepKeepsTheTableSound :=
  keptByMoved_tableSound.everyStep (fun h _ => h)

end Sys2Proof.Laws

/-! PROOFS. The interrupt line (R165 to R167): what a clear, an enable, a period, a tick and a pulse's end
make of the driver; with O57. -/

namespace Sys2Proof.Laws

open Sys2Proof.Machine

/-! ## Pending flags of a class -/

theorem any_allRings_iff {p : RingId → Bool} : allRings.any p = true ↔ ∃ r, p r = true := by
  simp [List.any_eq_true, mem_allRings]

theorem anyPending_iff (s : State) :
    s.anyPending = true ↔ s.globalPending ≠ 0 ∨ ∃ r, (s.ring r).events.pending ≠ 0 := by
  simp [State.anyPending, mem_allRings]

theorem urgentPending_iff (s : State) :
    s.urgentPending = true ↔
      s.globalPending &&& 11#5 ≠ 0 ∨ ∃ r, (s.ring r).events.pending &&& 0x1C1B6#18 ≠ 0 := by
  simp [State.urgentPending, mem_allRings]

theorem noticeWaits_iff (s : State) :
    s.noticeWaits = true ↔
      s.globalPending &&& 20#5 ≠ 0 ∨ ∃ r, (s.ring r).events.pending &&& 0x23E49#18 ≠ 0 := by
  simp [State.noticeWaits, mem_allRings]

theorem ne_zero_of_and {w : Nat} {x k : BitVec w} (h : x &&& k ≠ 0) : x ≠ 0 := by
  rintro rfl
  simp at h

theorem anyPending_of_urgent {s : State} (h : s.urgentPending = true) : s.anyPending = true := by
  rw [anyPending_iff]
  exact ((urgentPending_iff s).1 h).imp ne_zero_of_and (fun ⟨r, hr⟩ => ⟨r, ne_zero_of_and hr⟩)

theorem anyPending_of_notice {s : State} (h : s.noticeWaits = true) : s.anyPending = true := by
  rw [anyPending_iff]
  exact ((noticeWaits_iff s).1 h).imp ne_zero_of_and (fun ⟨r, hr⟩ => ⟨r, ne_zero_of_and hr⟩)

/-! ## A driver that suits the pending flags -/

theorem line_released {s : State} (nothing : s.anyPending = false) (released : s.driver = .released) :
    LineSound s :=
  ⟨fun _ => released, fun h => absurd (anyPending_of_urgent h) (by simp [nothing]),
    fun _ h => absurd (anyPending_of_notice h) (by simp [nothing])⟩

theorem line_driven {s : State} (left : s.anyPending = true) (driven : s.driver ≠ .released) :
    LineSound s := ⟨fun h => absurd left (by simp [h]), fun _ => driven, fun _ _ => driven⟩

/-- The release where nothing is left mends the first clause of the line. -/
theorem line_releaseIfNone {s : State} (urgent : s.urgentPending = true → s.driver ≠ .released)
    (notice : s.period = 0 → s.noticeWaits = true → s.driver ≠ .released) :
    LineSound s.releaseIfNone := by
  unfold State.releaseIfNone
  split
  · rename_i left
    exact ⟨fun nothing => absurd left (by simp [nothing]), urgent, notice⟩
  · rename_i nothing
    exact line_released (Bool.eq_false_of_not_eq_true nothing) rfl

/-- After a clear the flags left were pending before it (R165, R167). -/
theorem line_afterClear {s t : State} (h : LineSound s) (driver : t.driver = s.driver)
    (period : t.period = s.period) (urgent : t.urgentPending = true → s.urgentPending = true)
    (notice : t.noticeWaits = true → s.noticeWaits = true) : LineSound t.afterClear := by
  obtain ⟨-, lineUrgent, lineNotice⟩ := h
  unfold State.afterClear
  split
  · rename_i left
    split
    · exact ⟨fun nothing => absurd left (by simp [nothing]), fun u => driver ▸ lineUrgent (urgent u),
        fun p n => driver ▸ lineNotice (period ▸ p) (notice n)⟩
    · exact line_driven left (by simp)
    · exact line_driven left (by simp)
  · rename_i nothing
    exact line_released (Bool.eq_false_of_not_eq_true nothing) rfl

/-- The driver on new pending flags is driven where the line asks for it (R165, R166). -/
theorem driverOnNew_driven {s : State} {u n : Bool}
    (h : u = true ∨ (n = true ∧ s.period = 0) ∨ s.driver ≠ .released) :
    s.driverOnNew u n ≠ .released := by
  unfold State.driverOnNew
  split
  · simp
  · split
    · simp
    · rename_i notUrgent notAsserted
      intro released
      have : n = true ∧ s.period = 0 := by simpa [notUrgent, released] using h
      simp [this, released] at notAsserted

/-! ## Clears and enables (R163, R164) -/

theorem and_clear_ne_zero {w : Nat} {x m e k : BitVec w} (h : ((x &&& ~~~m) &&& e) &&& k ≠ 0) :
    (x &&& e) &&& k ≠ 0 := by
  intro zero
  apply h
  have : ((x &&& ~~~m) &&& e) &&& k = ((x &&& e) &&& k) &&& ~~~m := by ac_rfl
  rw [this, zero]
  simp

theorem line_clearRingFlags {s : State} (h : LineSound s) (r : RingId) (mask : BitVec 18) :
    LineSound (s.clearRingFlags r mask) := by
  have fewer : ∀ (k : BitVec 18) (q : RingId),
      ((s.modEvents r (fun e => { e with flags := e.flags &&& ~~~mask })).ring q).events.pending &&& k ≠ 0 →
        (s.ring q).events.pending &&& k ≠ 0 := by
    intro k q
    by_cases own : r = q
    · subst own
      rw [ring_modEvents_self]
      exact and_clear_ne_zero
    · rw [ring_modEvents_other _ _ own]
      exact id
  refine line_afterClear h rfl rfl (fun u => ?_) (fun n => ?_)
  · rw [urgentPending_iff] at u ⊢
    exact u.imp id (fun ⟨q, hq⟩ => ⟨q, fewer _ q hq⟩)
  · rw [noticeWaits_iff] at n ⊢
    exact n.imp id (fun ⟨q, hq⟩ => ⟨q, fewer _ q hq⟩)

theorem line_clearGlobalFlags {s : State} (h : LineSound s) (mask : BitVec 5) :
    LineSound (s.clearGlobalFlags mask) := by
  refine line_afterClear h rfl rfl (fun u => ?_) (fun n => ?_)
  · rw [urgentPending_iff] at u ⊢
    exact u.imp and_clear_ne_zero id
  · rw [noticeWaits_iff] at n ⊢
    exact n.imp and_clear_ne_zero id

/-- A pending flag is fresh, or was pending. -/
theorem fresh_or_pending {w : Nat} {x p k : BitVec w} (h : x &&& k ≠ 0) :
    (x &&& ~~~p) &&& k ≠ 0 ∨ p &&& k ≠ 0 := by
  by_contra neither
  obtain ⟨fresh, pending⟩ : (x &&& ~~~p) &&& k = 0 ∧ p &&& k = 0 := by simpa using neither
  apply h
  apply BitVec.eq_of_getElem_eq
  intro j hj
  have fresh : ((x &&& ~~~p) &&& k)[j] = false := by rw [fresh, getElem_zero' hj]
  have pending : (p &&& k)[j] = false := by rw [pending, getElem_zero' hj]
  simp only [BitVec.getElem_and, BitVec.getElem_not] at fresh pending
  rw [BitVec.getElem_and, getElem_zero']
  cases hx : x[j] <;> cases hp : p[j] <;> simp_all

theorem ringUrgentMask_eq : ringUrgentMask = 0x1C1B6#18 := by decide

theorem not_ringUrgentMask_eq : ~~~ringUrgentMask = 0x23E49#18 := by decide

theorem globalUrgentMask_eq : globalUrgentMask = 11#5 := by decide

theorem not_globalUrgentMask_eq : ~~~globalUrgentMask = 20#5 := by decide

theorem line_setRingEnables {s : State} (h : LineSound s) (r : RingId) (en : BitVec 18) :
    LineSound (s.setRingEnables r en) := by
  obtain ⟨-, lineUrgent, lineNotice⟩ := h
  have pending : ∀ (k : BitVec 18) (q : RingId),
      ((s.modEvents r (fun e => { e with enables := en })).ring q).events.pending &&& k ≠ 0 →
        (((s.ring r).events.flags &&& en) &&& ~~~(s.ring r).events.pending) &&& k ≠ 0 ∨
          (s.ring q).events.pending &&& k ≠ 0 := by
    intro k q
    by_cases own : r = q
    · subst own
      rw [ring_modEvents_self]
      exact fresh_or_pending
    · rw [ring_modEvents_other _ _ own]
      exact .inr
  refine line_releaseIfNone (fun u => driverOnNew_driven ?_) (fun p n => driverOnNew_driven ?_)
  · rcases (urgentPending_iff _).1 u with global | ⟨q, hq⟩
    · exact .inr (.inr (lineUrgent ((urgentPending_iff s).2 (.inl global))))
    · rcases pending _ q hq with fresh | old
      · exact .inl (by simpa [ringUrgentMask_eq] using fresh)
      · exact .inr (.inr (lineUrgent ((urgentPending_iff s).2 (.inr ⟨q, old⟩))))
  · rcases (noticeWaits_iff _).1 n with global | ⟨q, hq⟩
    · exact .inr (.inr (lineNotice p ((noticeWaits_iff s).2 (.inl global))))
    · rcases pending _ q hq with fresh | old
      · exact .inr (.inl ⟨by simpa [not_ringUrgentMask_eq] using fresh, p⟩)
      · exact .inr (.inr (lineNotice p ((noticeWaits_iff s).2 (.inr ⟨q, old⟩))))

theorem line_setGlobalEnables {s : State} (h : LineSound s) (en : BitVec 5) :
    LineSound (s.setGlobalEnables en) := by
  obtain ⟨-, lineUrgent, lineNotice⟩ := h
  refine line_releaseIfNone (fun u => driverOnNew_driven ?_) (fun p n => driverOnNew_driven ?_)
  · rcases (urgentPending_iff _).1 u with global | rings
    · rcases fresh_or_pending (x := s.globalFlags &&& en) (p := s.globalPending) global with fresh | old
      · exact .inl (by simpa [globalUrgentMask_eq] using fresh)
      · exact .inr (.inr (lineUrgent ((urgentPending_iff s).2 (.inl old))))
    · exact .inr (.inr (lineUrgent ((urgentPending_iff s).2 (.inr rings))))
  · rcases (noticeWaits_iff _).1 n with global | rings
    · rcases fresh_or_pending (x := s.globalFlags &&& en) (p := s.globalPending) global with fresh | old
      · exact .inr (.inl ⟨by simpa [not_globalUrgentMask_eq] using fresh, p⟩)
      · exact .inr (.inr (lineNotice p ((noticeWaits_iff s).2 (.inl old))))
    · exact .inr (.inr (lineNotice p ((noticeWaits_iff s).2 (.inr rings))))

/-! ## The period, its tick and the pulse's end (R166, R167) -/

/-- A NOTICE flag that waits asserts a line that is RELEASED. -/
theorem line_assertNotice {s : State} (nothing : s.anyPending = false → s.driver = .released)
    (urgent : s.urgentPending = true → s.driver ≠ .released) : LineSound s.assertNotice := by
  unfold State.assertNotice
  split
  · rename_i waits
    have waits : s.driver = .released ∧ s.noticeWaits = true := by
      simpa [noticePending_eq] using waits
    exact line_driven (anyPending_of_notice waits.2) (by simp)
  · rename_i waits
    exact ⟨nothing, urgent, fun _ notice released => waits (by simp [noticePending_eq, released, notice])⟩

theorem line_coalescingTick {s : State} (h : LineSound s) : LineSound s.coalescingTick := by
  unfold State.coalescingTick
  split
  · exact line_assertNotice h.1 h.2.1
  · exact h

theorem line_setPeriod {s : State} (h : LineSound s) (p : BitVec 8) : LineSound (s.setPeriod p) := by
  unfold State.setPeriod
  dsimp only
  split
  · exact line_assertNotice h.1 h.2.1
  · rename_i nonzero
    exact ⟨h.1, h.2.1, fun zero => absurd zero nonzero⟩

theorem line_endPulse {s : State} (h : LineSound s) : LineSound s.endPulse := by
  unfold State.endPulse
  split
  · exact h
  · exact h
  · split
    · by_cases left : s.anyPending = true
      · exact line_driven left (by simp [left])
      · exact line_released (Bool.eq_false_of_not_eq_true left) (by simp [left])
    · exact h

/-! ## Resets (R170) -/

theorem line_silent {s : State} (released : s.driver = .released) (flags : s.globalFlags = 0)
    (rings : ∀ r, (s.ring r).events.flags = 0) : LineSound s := by
  refine line_released ?_ released
  rw [← Bool.not_eq_true, anyPending_iff]
  simp [State.globalPending, RingEvents.pending, flags, rings]

theorem ring_reset (r : RingId) : State.reset.ring r = Ring.reset := by
  simp [State.ring, State.reset]

theorem line_powerOn (s : State) (pins : BitVec 2) : LineSound (s.poweredOn pins) :=
  line_silent rfl rfl (fun r => congrArg (fun x => x.events.flags) (ring_reset r))

theorem line_assertReset (s : State) : LineSound s.assertReset :=
  line_silent rfl rfl (fun r => congrArg (fun x => x.events.flags) (ring_reset r))

/-- A fold over the rings that changes each ring by itself. -/
theorem ring_foldl_modRing (f : Ring → Ring) (s : State) (l : List RingId) (distinct : l.Nodup) (r : RingId) :
    (l.foldl (fun (s : State) r => s.modRing r f) s).ring r =
      if r ∈ l then f (s.ring r) else s.ring r := by
  induction l generalizing s with
  | nil => simp
  | cons q l ih =>
    obtain ⟨fresh, distinct⟩ := List.nodup_cons.1 distinct
    rw [List.foldl_cons, ih _ distinct]
    by_cases own : q = r
    · subst own
      simp [fresh]
    · simp [Ne.symm own, ring_modRing_other _ _ own]

theorem ring_releaseIfNone (s : State) (r : RingId) : s.releaseIfNone.ring r = s.ring r := by
  unfold State.releaseIfNone
  split <;> rfl

theorem ring_zeroEvents (s : State) (r : RingId) :
    s.zeroEvents.ring r = { s.ring r with events := (s.ring r).events.zeroed } := by
  unfold State.zeroEvents
  rw [ring_releaseIfNone]
  exact (ring_foldl_modRing (fun x => { x with events := x.events.zeroed }) { s with globalFlags := 0 }
    allRings (by decide) r).trans (if_pos (mem_allRings r))

theorem foldl_modRing_rest (f : Ring → Ring) (s : State) (l : List RingId) :
    l.foldl (fun (s : State) r => s.modRing r f) s =
      { s with rings := (l.foldl (fun (s : State) r => s.modRing r f) s).rings } := by
  induction l generalizing s with
  | nil => rfl
  | cons q l ih =>
    rw [List.foldl_cons, ih]
    rfl

theorem globalFlags_releaseIfNone (s : State) : s.releaseIfNone.globalFlags = s.globalFlags := by
  unfold State.releaseIfNone
  split <;> rfl

theorem globalFlags_zeroEvents (s : State) : s.zeroEvents.globalFlags = 0 := by
  unfold State.zeroEvents
  rw [globalFlags_releaseIfNone]
  exact congrArg State.globalFlags (foldl_modRing_rest (fun x => { x with events := x.events.zeroed })
    { s with globalFlags := 0 } allRings)

theorem anyPending_zeroEvents (s : State) : s.zeroEvents.anyPending = false := by
  rw [← Bool.not_eq_true, anyPending_iff]
  simp [State.globalPending, RingEvents.pending, globalFlags_zeroEvents, ring_zeroEvents,
    RingEvents.zeroed, RingEvents.reset]

/-- With every flag zeroed the line is RELEASED (R165). -/
theorem driver_zeroEvents (s : State) : s.zeroEvents.driver = .released := by
  have nothing := anyPending_zeroEvents s
  unfold State.zeroEvents State.releaseIfNone at nothing ⊢
  split at nothing <;> simp_all

theorem line_zeroEvents (s : State) : LineSound s.zeroEvents :=
  line_released (anyPending_zeroEvents s) (driver_zeroEvents s)

/-! ## Every step -/

theorem keptByMoved_lineSound : KeptByMoved LineSound where
  moved := fun moved h => moved.line h
  poweredOn := fun _ pins => line_powerOn _ pins
  assertReset := fun _ => line_assertReset _
  releaseReset := fun h _ => h
  tick := fun h => h
  sendUp := fun h _ => h
  enterOutstanding := fun h _ _ _ => h
  setTag := fun h _ _ => h
  queues := fun h _ _ => h
  snapshotRing := fun h r => line_modEvents _ r RingEvents.snapshot rfl h
  zeroEvents := fun _ => line_zeroEvents _
  modSurvey := fun h _ => h
  syncLevel := fun h _ => h
  coalescingTick := line_coalescingTick
  endPulse := line_endPulse
  modPort := fun h _ _ => h
  latch := fun {s} h f j => by
    unfold State.latch
    split <;> exact h
  clearRingFlags := line_clearRingFlags
  clearGlobalFlags := line_clearGlobalFlags
  setRingEnables := line_setRingEnables
  setGlobalEnables := line_setGlobalEnables
  setPeriod := line_setPeriod
  downTimeout := fun h _ => h
  configure := fun h r _ _ => line_modRing _ r _ rfl h

/-- Settles O57: a report, a clear, an enable write, the period and its tick, and the pulse's end each leave
the driver as the pending flags of the two classes require. -/
theorem everyStepKeepsTheLineSound : Obligations.EveryStepKeepsTheLineSound :=
  keptByMoved_lineSound.everyStep (fun h _ => h)

end Sys2Proof.Laws

/-! PROOFS. The life of a ring (R20, R31 to R36): no event but START makes an IDLE ring active, moves an
active ring's configuration or gives a ring blocks; with the stamp pool (O55) and the regions (O58). -/

namespace Sys2Proof.Laws

open Sys2Proof.Machine

/-! ## What every event but START leaves of a ring's life -/

/-- From `x` to `y` the ring has not started: if it is active then so it was, so configured and with these
blocks; if it is IDLE then it has no blocks, or has been IDLE with those. -/
structure NotStarted (x y : Ring) : Prop where
  active : y.state ≠ .idle → x.state ≠ .idle ∧ y.config = x.config ∧ y.blocks = x.blocks
  idle : y.state = .idle → y.blocks = [] ∨ (x.state = .idle ∧ y.blocks = x.blocks)

theorem NotStarted.refl (x : Ring) : NotStarted x x := ⟨fun h => ⟨h, rfl, rfl⟩, fun h => .inr ⟨h, rfl⟩⟩

theorem NotStarted.trans {x y z : Ring} (a : NotStarted x y) (b : NotStarted y z) : NotStarted x z where
  active := fun h => by
    obtain ⟨mid, config, blocks⟩ := b.active h
    obtain ⟨start, config', blocks'⟩ := a.active mid
    exact ⟨start, config.trans config', blocks.trans blocks'⟩
  idle := fun h => by
    rcases b.idle h with none | ⟨mid, blocks⟩
    · exact .inl none
    · rcases a.idle mid with none | ⟨start, blocks'⟩
      · exact .inl (blocks.trans none)
      · exact .inr ⟨start, blocks.trans blocks'⟩

/-- Configuration and blocks stay, and so does being IDLE. -/
theorem NotStarted.of_same {x y : Ring} (config : y.config = x.config) (blocks : y.blocks = x.blocks)
    (state : y.state = .idle ↔ x.state = .idle) : NotStarted x y :=
  ⟨fun h => ⟨fun idle => h (state.2 idle), config, blocks⟩, fun h => .inr ⟨state.1 h, blocks⟩⟩

theorem NotStarted.of_idle {x y : Ring} (state : y.state = .idle) (blocks : y.blocks = []) : NotStarted x y :=
  ⟨fun h => absurd state h, fun _ => .inl blocks⟩

theorem Kept.notStarted {x y : Ring} (h : Kept x y) : NotStarted x y :=
  .of_same h.config h.blocks (by rw [h.state])

/-- No ring has started from `s` to `t`. -/
def NoStart (s t : State) : Prop := ∀ r, NotStarted (s.ring r) (t.ring r)

theorem NoStart.refl (s : State) : NoStart s s := fun _ => .refl _

theorem NoStart.trans {s t u : State} (a : NoStart s t) (b : NoStart t u) : NoStart s u :=
  fun r => (a r).trans (b r)

theorem NoStart.of_rings {s t : State} (h : ∀ r, t.ring r = s.ring r) : NoStart s t :=
  fun r => by rw [h r]; exact .refl _

theorem noStart_of_ring {s t : State} {r : RingId} (own : NotStarted (s.ring r) (t.ring r))
    (others : ∀ q, q ≠ r → t.ring q = s.ring q) : NoStart s t := fun q => by
  by_cases h : q = r
  · exact h ▸ own
  · rw [others q h]
    exact .refl _

theorem Inner.noStart {r : RingId} {s t : State} (h : Inner r s t) : NoStart s t :=
  noStart_of_ring h.ring.notStarted h.others

theorem noStart_modRing (s : State) (r : RingId) (f : Ring → Ring)
    (h : NotStarted (s.ring r) (f (s.ring r))) : NoStart s (s.modRing r f) :=
  noStart_of_ring (by rw [ring_modRing_self]; exact h) (fun _ hq => ring_modRing_other s f (Ne.symm hq))

theorem noStart_enterIdle (s : State) (r : RingId) : NoStart s (s.enterIdle r) :=
  (noStart_modRing s r Ring.entered (.of_idle rfl rfl)).trans
    ((inner_surveySourceLoss _ r).trans (inner_raise _ r _)).noStart

theorem noStart_settle (s : State) (r : RingId) : NoStart s (s.settle r) := by
  unfold State.settle
  split
  · exact noStart_enterIdle s r
  · exact .refl s

/-- A ring that is not IDLE takes another state that is not IDLE. -/
theorem noStart_setState (s : State) (r : RingId) {st : RingState} (was : (s.ring r).state ≠ .idle)
    (is : st ≠ .idle) : NoStart s (s.modRing r (fun x => { x with state := st })) :=
  noStart_modRing s r _ (.of_same rfl rfl ⟨fun h => absurd h is, fun h => absurd h was⟩)

theorem noStart_stopRing (s : State) (r : RingId) (was : (s.ring r).state ≠ .idle) :
    NoStart s (s.stopRing r) := by
  refine NoStart.trans (NoStart.trans (noStart_setState s r was (st := .draining) (by simp)) ?_)
    (noStart_settle _ r)
  unfold State.refuseParkedDraining
  split
  · exact (inner_refuseParked _ r _).noStart
  · exact .refl _

theorem noStart_abortRing (s : State) (r : RingId) (was : (s.ring r).state ≠ .idle) :
    NoStart s (s.abortRing r) := by
  unfold State.abortRing State.abortEffects
  have start := noStart_setState s r was (st := .aborting) (by simp)
  generalize s.modRing r (fun x => { x with state := .aborting }) = t at start ⊢
  have queues := ((inner_abortPutQueue t r).trans (inner_abortTakeQueue _ r)).noStart
  dsimp only
  generalize (t.abortPutQueue r).abortTakeQueue r = u at queues ⊢
  have ended := ((inner_modPut u r PutEngine.abortTear).trans (inner_revokeTake _ r)).noStart
  generalize (u.modPut r PutEngine.abortTear).revokeTake r = v at ended ⊢
  have departed := noStart_modRing v r Ring.abortSet (.of_same rfl rfl Iff.rfl)
  exact ((((start.trans queues).trans ended).trans departed).trans
    (inner_surveySourceLoss _ r).noStart).trans (noStart_settle _ r)

theorem ne_idle_of_serving {x : Ring} (h : x.state.serving = true) : x.state ≠ .idle := by
  intro idle
  simp [idle, RingState.serving] at h

/-- Every ring command but START, accepted or refused. -/
theorem noStart_ringCommand (s : State) (r : RingId) (c : RingCommand) (h : c ≠ .start) :
    NoStart s (s.ringCommand r c) := by
  unfold State.ringCommand
  dsimp only
  refine NoStart.trans ?_ (noStart_modRing _ r _ (.of_same rfl rfl Iff.rfl))
  split
  · rename_i accepted
    have was : c = .stop ∨ c = .abort → (s.ring r).state ≠ .idle := by
      rintro (rfl | rfl) idle <;> simp [State.commandResult, idle] at accepted
    cases c with
    | start => exact absurd rfl h
    | stop => exact noStart_stopRing s r (was (.inl rfl))
    | abort => exact noStart_abortRing s r (was (.inr rfl))
    | flush => exact (inner_flushRing s r).noStart
    | snapshot => exact noStart_modRing s r _ (.of_same rfl rfl Iff.rfl)
  · exact .refl s

theorem noStart_zeroEvents (s : State) : NoStart s s.zeroEvents := fun r => by
  rw [ring_zeroEvents]
  exact .of_same rfl rfl Iff.rfl

theorem noStart_softReset (s : State) : NoStart s s.softReset := by
  unfold State.softReset
  have zeroed : NoStart s (((s.modPort (fun p => { p with resetCause := .soft })).zeroEvents).modSurvey
      Survey.stopped) :=
    noStart_zeroEvents (s.modPort (fun p => { p with resetCause := .soft }))
  refine List.foldlRecOn allRings State.softAbort zeroed (fun t kept r _ => kept.trans ?_)
  unfold State.softAbort
  split
  · exact noStart_abortRing t r (ne_idle_of_serving ‹_›)
  · exact .refl t

theorem ring_afterClear (s : State) (r : RingId) : s.afterClear.ring r = s.ring r := by
  unfold State.afterClear
  split
  · split <;> rfl
  · rfl

theorem ring_assertNotice (s : State) (r : RingId) : s.assertNotice.ring r = s.ring r := by
  unfold State.assertNotice
  split <;> rfl

theorem ring_latch (s : State) (f : RegField) (j : Nat) (r : RingId) : (s.latch f j).ring r = s.ring r := by
  unfold State.latch
  split <;> rfl

theorem ring_coalescingTick (s : State) (r : RingId) : s.coalescingTick.ring r = s.ring r := by
  unfold State.coalescingTick
  split
  · exact ring_assertNotice _ r
  · rfl

theorem ring_endPulse (s : State) (r : RingId) : s.endPulse.ring r = s.ring r := by
  unfold State.endPulse
  split
  · rfl
  · rfl
  · split <;> rfl

theorem ring_setPeriod (s : State) (p : BitVec 8) (r : RingId) : (s.setPeriod p).ring r = s.ring r := by
  unfold State.setPeriod
  dsimp only
  split
  · exact ring_assertNotice _ r
  · rfl

/-- An update of one ring's events, whatever becomes of the driver. -/
theorem ring_events_of {s t : State} {r : RingId} {f : RingEvents → RingEvents}
    (h : ∀ q, t.ring q = (s.modEvents r f).ring q) (q : RingId) :
    ∃ e, t.ring q = { s.ring q with events := e } := by
  rw [h q]
  by_cases own : r = q
  · subst own
    exact ⟨_, ring_modEvents_self s r f⟩
  · exact ⟨(s.ring q).events, ring_modEvents_other s f own⟩

theorem ring_clearRingFlags (s : State) (r : RingId) (mask : BitVec 18) (q : RingId) :
    ∃ e, (s.clearRingFlags r mask).ring q = { s.ring q with events := e } :=
  ring_events_of (fun q => ring_afterClear _ q) q

theorem ring_setRingEnables (s : State) (r : RingId) (en : BitVec 18) (q : RingId) :
    ∃ e, (s.setRingEnables r en).ring q = { s.ring q with events := e } :=
  ring_events_of (f := fun e => { e with enables := en })
    (fun q => by unfold State.setRingEnables; dsimp only; rw [ring_releaseIfNone]; rfl) q

theorem NoStart.of_events {s t : State} (h : ∀ q, ∃ e, t.ring q = { s.ring q with events := e }) :
    NoStart s t := fun q => by
  obtain ⟨e, eq⟩ := h q
  rw [eq]
  exact .of_same rfl rfl Iff.rfl

theorem noStart_deliver (s : State) (o : Owner) (q : Requester) (u : UTag) (g : BitVec 8)
    (status : Status) (data : List Word) : NoStart s (s.deliver o q u g status data) := by
  cases o with
  | pass => exact (inner_respond s 0 q u status _).noStart
  | put r => exact (inner_putOutcome s r q u g status).noStart.trans (noStart_settle _ r)
  | take r => exact (inner_takeOutcome s r q u status data).noStart.trans (noStart_settle _ r)

theorem noStart_putRequest (s : State) (r : RingId) (q : UpRequest) (k : Nat) :
    NoStart s (s.putRequest r q k) := by
  unfold State.putRequest State.admitPut
  split
  · exact ((inner_recordPut s r _ _ _).trans (inner_respondError _ r _ _)).noStart
  · dsimp only
    split
    · exact (inner_respond s r _ _ _ _).noStart
    · exact (inner_deliverPut s r _).noStart.trans (noStart_settle _ r)

theorem noStart_takeRequest (s : State) (r : RingId) (q : UpRequest) (k : Nat) :
    NoStart s (s.takeRequest r q k) := by
  unfold State.takeRequest State.admitTake
  split
  · exact ((inner_recordTake s r _ _ _).trans (inner_respondError _ r _ _)).noStart
  · dsimp only
    split
    · exact (inner_respond s r _ _ _ _).noStart
    · split
      · exact (inner_respondFill s r _ _ _).noStart
      · exact (inner_deliverTake s r _).noStart.trans (noStart_settle _ r)

theorem noStart_offer (s : State) (q : UpRequest) : NoStart s (s.offer q) := by
  unfold State.offer
  split
  · exact .refl s
  · split
    · exact .of_rings (fun _ => rfl)
    · show NoStart (s.enterOutstanding q) _
      unfold State.dispatchRequest
      split
      · exact .of_rings (fun _ => rfl)
      · exact .of_rings (fun _ => rfl)
      · exact ((inner_raise _ _ _).trans (inner_respondError _ _ _ _)).noStart
      · exact noStart_putRequest _ _ q _
      · exact noStart_takeRequest _ _ q _

theorem noStart_lateExpiry (s : State) (r : RingId) : NoStart s (s.lateExpiry r) := by
  unfold State.lateExpiry
  dsimp only
  split
  · split
    · exact ((inner_cadenceLate s r).trans (inner_refuseAbsent _ r)).noStart.trans (noStart_settle _ r)
    · exact (inner_cadenceLate s r).noStart
  · exact .refl s

theorem ring_issueHead (s : State) (r : RingId) : s.issueHead.ring r = s.ring r := by
  unfold State.issueHead
  split <;> rfl

/-! ## Invariants that only START can break -/

/-- An invariant of the rings' lives is kept by what is no START, and by an accepted START. -/
structure KeptByLives (inv : State → Prop) : Prop where
  noStart : ∀ {s t}, NoStart s t → inv s → inv t
  startRing : ∀ {s}, inv s → ∀ r, s.startResult r = .accepted → inv (s.startRing r)

namespace KeptByLives

variable {inv : State → Prop} (keeps : KeptByLives inv)

include keeps

theorem sameRings {s t : State} (h : inv s) (same : ∀ r, t.ring r = s.ring r) : inv t :=
  keeps.noStart (.of_rings same) h

theorem ringCommand {s : State} (h : inv s) (r : RingId) (c : RingCommand) : inv (s.ringCommand r c) := by
  by_cases start : c = .start
  · subst start
    unfold State.ringCommand
    dsimp only
    refine keeps.noStart (noStart_modRing _ r _ (.of_same rfl rfl Iff.rfl)) ?_
    split
    · exact keeps.startRing h r ‹_›
    · exact h
  · exact keeps.noStart (noStart_ringCommand s r c start) h

theorem events : KeptByEvents inv where
  queue := fun h _ => keeps.sameRings h fun _ => rfl
  poweredOn := fun {s} h pins => keeps.noStart
    (fun r => .of_idle (congrArg Ring.state (ring_reset r)) (congrArg Ring.blocks (ring_reset r))) h
  assertReset := fun {s} h => keeps.noStart
    (fun r => .of_idle (congrArg Ring.state (ring_reset r)) (congrArg Ring.blocks (ring_reset r))) h
  releaseReset := fun h _ => keeps.sameRings h fun _ => rfl
  tick := fun h => keeps.sameRings h fun _ => rfl
  offer := fun {s} h q => keeps.noStart (noStart_offer s q) h
  issueHead := fun {s} h => keeps.sameRings h (ring_issueHead s)
  matchResponse := fun {s} h i status data => by
    unfold State.matchResponse
    split
    · exact h
    · exact keeps.sameRings h fun _ => rfl
    · exact keeps.noStart (noStart_deliver _ _ _ _ _ _ _) (keeps.sameRings h fun _ => rfl)
  timeoutTag := fun {s} h i => by
    unfold State.timeoutTag
    split
    · exact h
    · exact h
    · split
      · exact keeps.noStart (noStart_deliver _ _ _ _ _ _ _) (keeps.sameRings h fun _ => rfl)
      · exact h
  quarantineTag := fun {s} h i => keeps.sameRings h fun _ => by
    unfold State.quarantineTag
    split
    · rfl
    · rfl
    · split <;> rfl
  putParkExpiry := fun {s} h r => by
    unfold State.putParkExpiry
    split
    · exact keeps.noStart ((inner_refuseParked s r _).noStart.trans (noStart_settle _ r)) h
    · exact h
  takeParkExpiry := fun {s} h r => by
    unfold State.takeParkExpiry
    split
    · exact keeps.noStart ((inner_fillParked s r).noStart.trans (noStart_settle _ r)) h
    · exact h
  ageExpiry := fun {s} h r => by
    unfold State.ageExpiry
    dsimp only
    split
    · exact keeps.noStart
        (((inner_ageOutHead s r).trans (inner_rearmAge _ r)).noStart.trans (noStart_settle _ r)) h
    · exact h
  searchTimerExpiry := fun {s} h r => keeps.noStart (inner_searchTimerExpiry s r).noStart h
  secondBoundary := fun {s} h r => by
    unfold State.secondBoundary
    split
    · exact h
    · split
      · exact keeps.noStart (noStart_modRing s r _ (.of_same rfl rfl Iff.rfl)) h
      · exact h
  lateExpiry := fun {s} h r => keeps.noStart (noStart_lateExpiry s r) h
  settle := fun {s} h r => keeps.noStart (noStart_settle s r) h
  ringCommand := keeps.ringCommand
  softReset := fun {s} h => keeps.noStart (noStart_softReset s) h
  surveySampleOcc := fun {s} h => keeps.noStart (inner_surveySampleOcc s 0).noStart h
  modSurvey := fun h _ => keeps.sameRings h fun _ => rfl
  syncLevel := fun h _ => keeps.sameRings h fun _ => rfl
  coalescingTick := fun {s} h => keeps.sameRings h (ring_coalescingTick s)
  endPulse := fun {s} h => keeps.sameRings h (ring_endPulse s)
  modPort := fun h _ _ => keeps.sameRings h fun _ => rfl
  latch := fun {s} h f j => keeps.sameRings h (ring_latch s f j)
  clearRingFlags := fun {s} h r mask => keeps.noStart (.of_events (ring_clearRingFlags s r mask)) h
  clearGlobalFlags := fun h _ => keeps.sameRings h (ring_afterClear _)
  setRingEnables := fun {s} h r en => keeps.noStart (.of_events (ring_setRingEnables s r en)) h
  setGlobalEnables := fun h _ => keeps.sameRings h (ring_releaseIfNone _)
  setPeriod := fun {s} h p => keeps.sameRings h (ring_setPeriod s p)
  downTimeout := fun h _ => keeps.sameRings h fun _ => rfl
  configure := fun {s} h r c idle => keeps.noStart
    (noStart_modRing s r _ ⟨fun active => absurd idle active, fun _ => .inr ⟨idle, rfl⟩⟩) h

end KeptByLives

/-! ## START (R29 to R31) -/

theorem ring_startRing_self (s : State) (r : RingId) :
    (s.startRing r).ring r = (s.ring r).started s.timebase (s.blocksFor r) :=
  ring_modRing_self _ r _

theorem ring_startRing_other (s : State) {r q : RingId} (h : r ≠ q) :
    (s.startRing r).ring q = s.ring q := ring_modRing_other _ _ h

/-- What the checks of table 2.6 have found of an accepted START, where later claims need it. -/
structure StartAccepted (s : State) (r : RingId) : Prop where
  idle : (s.ring r).state = .idle
  slotCount : (s.ring r).config.badSlotCount = false
  selfApart : (s.ring r).config.selfOverlap = false
  crossApart : ∀ q, q ≠ r → (s.ring q).state.active = true →
    (s.ring r).config.crossOverlap (s.ring q).config = false
  timers : (s.ring r).config.badTimers = false
  marks : (s.ring r).config.badMarks = false
  stamps : (s.ring r).config.blocksNeeded ≤ s.freeBlocks.length

/-- A check that does not decide the result has not failed. -/
theorem of_ite_ne {α : Type} {c : Prop} [Decidable c] {a b v : α} (h : (if c then a else b) = v)
    (ne : a ≠ v) : ¬c ∧ b = v := by
  split at h
  · exact absurd h ne
  · exact ⟨‹_›, h⟩

theorem startAccepted_of_result {s : State} {r : RingId} (h : s.startResult r = .accepted) :
    StartAccepted s r := by
  unfold State.startResult at h
  dsimp only at h
  obtain ⟨idle, h⟩ := of_ite_ne h (by simp)
  obtain ⟨-, h⟩ := of_ite_ne h (by simp)
  obtain ⟨count, h⟩ := of_ite_ne h (by simp)
  obtain ⟨-, h⟩ := of_ite_ne h (by simp)
  obtain ⟨-, h⟩ := of_ite_ne h (by simp)
  obtain ⟨alone, h⟩ := of_ite_ne h (by simp)
  obtain ⟨cross, h⟩ := of_ite_ne h (by simp)
  obtain ⟨timers, h⟩ := of_ite_ne h (by simp)
  obtain ⟨marks, h⟩ := of_ite_ne h (by simp)
  obtain ⟨-, h⟩ := of_ite_ne h (by simp)
  obtain ⟨-, h⟩ := of_ite_ne h (by simp)
  obtain ⟨-, h⟩ := of_ite_ne h (by simp)
  obtain ⟨stamps, -⟩ := of_ite_ne h (by simp)
  refine ⟨not_not.1 idle, Bool.eq_false_of_not_eq_true count, Bool.eq_false_of_not_eq_true alone,
    fun q hq active => ?_, Bool.eq_false_of_not_eq_true timers, Bool.eq_false_of_not_eq_true marks,
    not_lt.1 stamps⟩
  by_contra overlapping
  exact cross (any_allRings_iff.2 ⟨q, by simpa [hq, active] using overlapping⟩)

/-- An active ring has at least 2 slots (check 3). -/
theorem two_le_slots_of_badSlotCount {c : RingConfig} (h : c.badSlotCount = false) : 2 ≤ c.slots := by
  unfold RingConfig.badSlotCount at h
  cases kind : c.kind <;> simp [kind] at h <;> omega

/-! ## The stamp pool (R44) -/

theorem blockHeld_iff (s : State) (b : Nat) : s.blockHeld b = true ↔ ∃ r, b ∈ (s.ring r).blocks := by
  simp [State.blockHeld, mem_allRings]

theorem mem_freeBlocks (s : State) (b : Nat) :
    b ∈ s.freeBlocks ↔ b < Config.stampBlocks ∧ ∀ r, b ∉ (s.ring r).blocks := by
  have : s.blockHeld b = false ↔ ∀ r, b ∉ (s.ring r).blocks := by
    rw [← Bool.not_eq_true, blockHeld_iff]
    simp
  simp [State.freeBlocks, this]

theorem mem_blocksFor {s : State} {r : RingId} {b : Nat} (h : b ∈ s.blocksFor r) :
    b < Config.stampBlocks ∧ ∀ q, b ∉ (s.ring q).blocks :=
  (mem_freeBlocks s b).1 (List.mem_of_mem_take h)

theorem freeBlocks_ascend (s : State) : s.freeBlocks.Pairwise (· < ·) :=
  List.pairwise_lt_range.filter _

theorem blocksFor_ascend (s : State) (r : RingId) : (s.blocksFor r).Pairwise (· < ·) :=
  (freeBlocks_ascend s).sublist (List.take_sublist _ _)

/-- A ring that has not started holds no block that it did not hold. -/
theorem NotStarted.blocks_sublist {x y : Ring} (h : NotStarted x y) : y.blocks.Sublist x.blocks := by
  by_cases idle : y.state = .idle
  · rcases h.idle idle with none | ⟨-, same⟩
    · rw [none]
      exact List.nil_sublist _
    · rw [same]
  · rw [(h.active idle).2.2]

theorem poolSound_of_noStart {s t : State} (h : NoStart s t) (sound : PoolSound s) : PoolSound t := by
  obtain ⟨lists, apart, idle⟩ := sound
  have sub : ∀ r, (t.ring r).blocks.Sublist (s.ring r).blocks := fun r => (h r).blocks_sublist
  refine ⟨fun r => ⟨(lists r).1.sublist (sub r), fun b hb => (lists r).2 b ((sub r).mem hb)⟩,
    fun r q b hr hq => apart r q b ((sub r).mem hr) ((sub q).mem hq), fun r hr => ?_⟩
  rcases (h r).idle hr with none | ⟨was, same⟩
  · exact none
  · exact same.trans (idle r was)

theorem poolSound_startRing {s : State} (sound : PoolSound s) (r : RingId) : PoolSound (s.startRing r) := by
  obtain ⟨lists, apart, idle⟩ := sound
  have own : ((s.startRing r).ring r).blocks = s.blocksFor r := by rw [ring_startRing_self]; rfl
  have fresh : ∀ q b, r ≠ q → b ∈ ((s.startRing r).ring r).blocks →
      b ∉ ((s.startRing r).ring q).blocks := by
    intro q b hq hb
    rw [ring_startRing_other s hq]
    exact (mem_blocksFor (own ▸ hb)).2 q
  refine ⟨fun q => ?_, fun p q b hp hq => ?_, fun q hq => ?_⟩
  · by_cases h : r = q
    · subst h
      rw [own]
      exact ⟨blocksFor_ascend s r, fun b hb => (mem_blocksFor hb).1⟩
    · rw [ring_startRing_other s h]
      exact lists q
  · by_contra differ
    by_cases hrp : r = p
    · subst hrp
      exact fresh q b differ hp hq
    · by_cases hrq : r = q
      · subst hrq
        exact fresh p b hrp hq hp
      · rw [ring_startRing_other s hrp] at hp
        rw [ring_startRing_other s hrq] at hq
        exact differ (apart p q b hp hq)
  · by_cases h : r = q
    · subst h
      rw [ring_startRing_self] at hq
      cases hq
    · rw [ring_startRing_other s h] at hq ⊢
      exact idle q hq

/-- In a sound pool the blocks held by the rings and the free ones are the 64 of R44. -/
theorem heldBlocks_add_free {s : State} (sound : PoolSound s) : s.heldBlocks + s.freeBlocks.length = 64 := by
  obtain ⟨lists, apart, -⟩ := sound
  have disjoint : (allRings.flatMap (fun r => (s.ring r).blocks)).Nodup := by
    refine List.nodup_flatMap.2 ⟨fun r _ => (lists r).1.imp ne_of_lt, ?_⟩
    have : allRings.Pairwise (· ≠ ·) := by decide
    exact this.imp (fun differ b hr hq => differ (apart _ _ b hr hq))
  have perm : (allRings.flatMap (fun r => (s.ring r).blocks) ++ s.freeBlocks).Perm (List.range 64) := by
    refine (List.perm_ext_iff_of_nodup ?_ List.nodup_range).2 (fun b => ?_)
    · refine disjoint.append ((freeBlocks_ascend s).imp ne_of_lt) (fun b held free => ?_)
      obtain ⟨r, -, hr⟩ := List.mem_flatMap.1 held
      exact ((mem_freeBlocks s b).1 free).2 r hr
    · rw [List.mem_append, mem_freeBlocks, List.mem_flatMap, List.mem_range]
      constructor
      · rintro (⟨r, -, hr⟩ | ⟨below, -⟩)
        · exact (lists r).2 b hr
        · exact below
      · intro below
        by_cases held : ∃ r, b ∈ (s.ring r).blocks
        · obtain ⟨r, hr⟩ := held
          exact .inl ⟨r, mem_allRings r, hr⟩
        · exact .inr ⟨below, fun r hr => held ⟨r, hr⟩⟩
  have count := perm.length_eq
  rwa [List.length_append, List.length_flatMap, List.length_range] at count

/-- Settles O55: what is no START gives no ring a block, and a START takes blocks that no ring held; disjoint
lists within 0..63 with the free blocks are a permutation of 0..63. -/
theorem everyStepKeepsThePoolSound : Obligations.EveryStepKeepsThePoolSound :=
  ⟨(KeptByLives.mk poolSound_of_noStart (fun h r _ => poolSound_startRing h r)).events.everyStep,
    fun _ => heldBlocks_add_free⟩

/-! ## The regions (R29, R30) -/

theorem overlap_comm (a b : Nat × Nat) : overlap a b = overlap b a := Bool.and_comm _ _

theorem crossOverlap_comm (c d : RingConfig) : c.crossOverlap d = d.crossOverlap c := by
  simp [RingConfig.crossOverlap, RingConfig.ranges, overlap_comm]
  ac_rfl

theorem regionsSound_of_noStart {s t : State} (h : NoStart s t) (sound : RegionsSound s) : RegionsSound t := by
  obtain ⟨alone, apart⟩ := sound
  refine ⟨fun r hr => ?_, fun r q differ hr hq => ?_⟩
  · obtain ⟨was, config, -⟩ := (h r).active hr
    rw [config]
    exact alone r was
  · obtain ⟨wasR, configR, -⟩ := (h r).active hr
    obtain ⟨wasQ, configQ, -⟩ := (h q).active hq
    rw [configR, configQ]
    exact apart r q differ wasR wasQ

theorem active_of_ne_idle {st : RingState} (h : st ≠ .idle) : st.active = true := by
  cases st with
  | idle => exact absurd rfl h
  | running | draining | aborting => rfl

theorem regionsSound_startRing {s : State} (sound : RegionsSound s) (r : RingId)
    (accepted : s.startResult r = .accepted) : RegionsSound (s.startRing r) := by
  obtain ⟨alone, apart⟩ := sound
  have start := startAccepted_of_result accepted
  have own : ((s.startRing r).ring r).config = (s.ring r).config := by rw [ring_startRing_self]; rfl
  have cross : ∀ q, r ≠ q → ((s.startRing r).ring q).state ≠ .idle →
      ((s.startRing r).ring r).config.crossOverlap ((s.startRing r).ring q).config = false := by
    intro q hq active
    rw [own]
    rw [ring_startRing_other s hq] at active ⊢
    exact start.crossApart q (Ne.symm hq) (active_of_ne_idle active)
  refine ⟨fun q hq => ?_, fun p q differ hp hq => ?_⟩
  · by_cases h : r = q
    · subst h
      rw [own]
      exact ⟨two_le_slots_of_badSlotCount start.slotCount, start.selfApart⟩
    · rw [ring_startRing_other s h] at hq ⊢
      exact alone q hq
  · by_cases hrp : r = p
    · subst hrp
      exact cross q differ hq
    · by_cases hrq : r = q
      · subst hrq
        rw [crossOverlap_comm]
        exact cross p hrp hp
      · rw [ring_startRing_other s hrp] at hp ⊢
        rw [ring_startRing_other s hrq] at hq ⊢
        exact apart p q differ hp hq

/-- Settles O58: an active ring's configuration stays until it is IDLE, and a START is accepted only when the
ring's ranges are apart from each other and from those of every active ring. -/
theorem everyStepKeepsRegionsApart : Obligations.EveryStepKeepsRegionsApart :=
  (KeptByLives.mk regionsSound_of_noStart regionsSound_startRing).events.everyStep

end Sys2Proof.Laws

/-! PROOFS. Invariants of each ring by itself: what an event leaves of the other rings and of their requests
with the Memory Port (R19), as one structure; with O59. -/

namespace Sys2Proof.Laws

open Sys2Proof.Machine

/-! ## Requests of a ring with the Memory Port (R19, R33) -/

theorem downstreamClear_iff (s : State) (r : RingId) : s.downstreamClear r = true ↔ s.noDownstream r := by
  simp [State.downstreamClear, State.busyCount, State.inIssueQueue, State.noDownstream,
    List.filter_eq_nil_iff, allTags]

theorem downstreamClear_congr {s t : State} (tags : t.tags = s.tags) (issues : t.issueQueue = s.issueQueue)
    (r : RingId) : t.downstreamClear r = s.downstreamClear r := by
  rw [Bool.eq_iff_iff, downstreamClear_iff, downstreamClear_iff]
  unfold State.noDownstream
  rw [tags, issues]

theorem Owner.eq_of_ofRing {o : Owner} {r q : RingId} (hr : o.ofRing r = true) (hq : o.ofRing q = true) :
    r = q := by
  cases o with
  | pass => simp [Owner.ofRing] at hr
  | put p => simp_all [Owner.ofRing]
  | take p => simp_all [Owner.ofRing]

/-- Requests that another ring hands down are none of this ring's. -/
theorem downstreamClear_append {s t : State} {r q : RingId} {l : List Issue} (tags : t.tags = s.tags)
    (issues : t.issueQueue = s.issueQueue ++ l) (owner : ∀ i ∈ l, i.owner.ofRing r = true) (hq : q ≠ r) :
    t.downstreamClear q = s.downstreamClear q := by
  rw [Bool.eq_iff_iff, downstreamClear_iff, downstreamClear_iff]
  unfold State.noDownstream
  rw [tags, issues]
  have : ∀ i ∈ l, i.owner.ofRing q = false := fun i hi => by
    by_contra other
    exact hq (Owner.eq_of_ofRing (Bool.eq_true_of_not_eq_false other) (owner i hi))
  simp only [List.mem_append]
  exact and_congr_right fun _ =>
    ⟨fun h i hi => h i (.inl hi), fun h i hi => hi.elim (h i) (this i)⟩

theorem getElem_set_tag (tags : Vector TagEntry 64) (i j : DTag) (e : TagEntry) :
    (tags.set i e)[j] = if i = j then e else tags[j] := by
  simp only [Fin.getElem_fin, Vector.getElem_set, Fin.ext_iff]

/-- An entry's change is no change for a ring that owns it neither before nor after. -/
theorem downstreamClear_setTag (s : State) {i : DTag} {e : TagEntry} {r : RingId}
    (before : s.tags[i].busyOf r = false) (after : e.busyOf r = false) :
    (s.setTag i e).downstreamClear r = s.downstreamClear r := by
  rw [Bool.eq_iff_iff, downstreamClear_iff, downstreamClear_iff]
  unfold State.noDownstream
  refine and_congr (forall_congr' fun j => ?_) Iff.rfl
  rw [tags_setTag, getElem_set_tag]
  split
  · rename_i own
    subst own
    exact iff_of_true after before
  · rfl

theorem lowestFreeTag_free {s : State} {i : DTag} (h : s.lowestFreeTag = some i) : s.tags[i] = .free := by
  have := List.find?_some h
  simpa using this

/-- The head of the issue queue becomes BUSY: a request of its ring it was before and is after (R13). -/
theorem downstreamClear_issueHead (s : State) (r : RingId) :
    s.issueHead.downstreamClear r = s.downstreamClear r := by
  unfold State.issueHead
  split
  · rename_i i rest t queue free
    have was := lowestFreeTag_free free
    rw [Bool.eq_iff_iff, downstreamClear_iff, downstreamClear_iff]
    unfold State.noDownstream
    simp only [queue, List.forall_mem_cons]
    have entry : (s.busyEntry i).busyOf r = i.owner.ofRing r := rfl
    constructor
    · rintro ⟨tags, issues⟩
      have own := tags t
      simp only [tags_setTag, getElem_set_tag, if_true, entry] at own
      refine ⟨fun j => ?_, own, issues⟩
      by_cases h : t = j
      · subst h
        rw [was]
        rfl
      · have other := tags j
        simpa only [tags_setTag, getElem_set_tag, if_neg h] using other
    · rintro ⟨tags, own, issues⟩
      refine ⟨fun j => ?_, issues⟩
      simp only [tags_setTag, getElem_set_tag]
      split
      · exact entry.trans own
      · exact tags j
  · rfl

/-- The tags of an entry's other states are no ring's. -/
theorem downstreamClear_of_tags {s t : State} (issues : t.issueQueue = s.issueQueue)
    (tags : ∀ (i : DTag) r, t.tags[i].busyOf r = s.tags[i].busyOf r) (r : RingId) :
    t.downstreamClear r = s.downstreamClear r := by
  rw [Bool.eq_iff_iff, downstreamClear_iff, downstreamClear_iff]
  unfold State.noDownstream
  simp only [issues, tags]

/-! ## What an event leaves of the other rings -/

/-- From `s` to `t` no other ring changes, nor whether a request of it is with the Memory Port. -/
structure OnlyRing (r : RingId) (s t : State) : Prop where
  ring : ∀ q, q ≠ r → t.ring q = s.ring q
  clear : ∀ q, q ≠ r → t.downstreamClear q = s.downstreamClear q

theorem Moved.onlyRing {r : RingId} {s t : State} (h : Moved r s t) : OnlyRing r s t where
  ring := h.others
  clear := fun q hq => by
    obtain ⟨l, issues, owner⟩ := h.issues
    exact downstreamClear_append h.tags issues owner hq

theorem Inner.onlyRing {r : RingId} {s t : State} (h : Inner r s t) : OnlyRing r s t := h.moved.onlyRing

theorem OnlyRing.trans {r : RingId} {s t u : State} (a : OnlyRing r s t) (b : OnlyRing r t u) :
    OnlyRing r s u :=
  ⟨fun q hq => (b.ring q hq).trans (a.ring q hq), fun q hq => (b.clear q hq).trans (a.clear q hq)⟩

theorem onlyRing_modRing (s : State) (r : RingId) (f : Ring → Ring) : OnlyRing r s (s.modRing r f) :=
  ⟨fun _ hq => ring_modRing_other s f (Ne.symm hq), fun _ _ => rfl⟩

theorem onlyRing_setTag (s : State) {r : RingId} {i : DTag} {e : TagEntry}
    (before : s.tags[i].busyOf r = true) (after : ∀ q, e.busyOf q = false) :
    OnlyRing r s (s.setTag i e) := by
  refine ⟨fun _ _ => rfl, fun q hq => downstreamClear_setTag s ?_ (after q)⟩
  cases entry : s.tags[i] with
  | busy o p u g timeout =>
    rw [entry] at before
    by_contra other
    exact hq (Owner.eq_of_ofRing (Bool.eq_true_of_not_eq_false other) before)
  | free => rfl
  | stale quarantine => rfl

/-! ## A request's ring is active (R5, table 1.3) -/

theorem ring_of_regionOf {s : State} {d : Dir} {a : Nat} {g : Region} (h : s.regionOf d a = some g) :
    ∃ r, (s.ring r).regionOf r d a = some g := by
  obtain ⟨r, -, region⟩ := List.exists_of_findSome?_eq_some h
  exact ⟨r, region⟩

/-- The region in which ring `r` finds an address is its own, and the ring is active. -/
theorem regionOf_own {x : Ring} {r : RingId} {d : Dir} {a : Nat} {g : Region}
    (h : x.regionOf r d a = some g) :
    x.state.active = true ∧ (g = .put r ∨ g = .take r ∨ g = .guarded r) := by
  unfold Ring.regionOf at h
  split_ifs at h with idle <;> cases h <;> simp_all

theorem classify_active {s : State} {q : UpRequest} {r : RingId}
    (h : (∃ k, s.classify q = .put r k) ∨ ∃ k, s.classify q = .take r k) :
    (s.ring r).state.active = true := by
  unfold State.classify at h
  dsimp only at h
  split at h
  · simp at h
  · split at h
    · split at h <;> simp at h
    · rename_i g region
      split at h
      · obtain ⟨p, found⟩ := ring_of_regionOf region
        obtain ⟨active, own⟩ := regionOf_own found
        rcases own with rfl | rfl | rfl <;> simp [State.classIn] at h <;> exact h ▸ active
      · simp at h

/-! ## Invariants of each ring -/

/-- A predicate of each ring that its fields and its requests with the Memory Port decide is kept by every
event: by the resets, by what changes events, and by the events of its own ring. -/
structure KeptByRings (at_ : State → RingId → Prop) : Prop where
  congr : ∀ {s t r}, t.ring r = s.ring r → t.downstreamClear r = s.downstreamClear r → at_ s r → at_ t r
  reset : ∀ {s r}, s.ring r = Ring.reset → s.downstreamClear r = true → at_ s r
  events : ∀ {s t r e}, t.ring r = { s.ring r with events := e } →
    t.downstreamClear r = s.downstreamClear r → at_ s r → at_ t r
  configure : ∀ {s r}, at_ s r → ∀ c, (s.ring r).state = .idle →
    at_ (s.modRing r (fun x => { x with config := c })) r
  putRequest : ∀ {s r}, at_ s r → (s.ring r).state.active = true → ∀ q k, at_ (s.putRequest r q k) r
  takeRequest : ∀ {s r}, at_ s r → (s.ring r).state.active = true → ∀ q k, at_ (s.takeRequest r q k) r
  putOutcome : ∀ {s r i}, at_ s r → s.tags[i].busyOf r = true → ∀ e, (∀ p, e.busyOf p = false) →
    ∀ q u g status, at_ (((s.setTag i e).putOutcome r q u g status).settle r) r
  takeOutcome : ∀ {s r i}, at_ s r → s.tags[i].busyOf r = true → ∀ e, (∀ p, e.busyOf p = false) →
    ∀ q u status data, at_ (((s.setTag i e).takeOutcome r q u status data).settle r) r
  putParkExpiry : ∀ {s r}, at_ s r → at_ (s.putParkExpiry r) r
  takeParkExpiry : ∀ {s r}, at_ s r → at_ (s.takeParkExpiry r) r
  ageExpiry : ∀ {s r}, at_ s r → at_ (s.ageExpiry r) r
  searchTimerExpiry : ∀ {s r}, at_ s r → at_ (s.searchTimerExpiry r) r
  secondBoundary : ∀ {s r}, at_ s r → at_ (s.secondBoundary r) r
  lateExpiry : ∀ {s r}, at_ s r → at_ (s.lateExpiry r) r
  settle : ∀ {s r}, at_ s r → at_ (s.settle r) r
  startRing : ∀ {s r}, at_ s r → s.startResult r = .accepted → at_ (s.startRing r) r
  stopRing : ∀ {s r}, at_ s r → (s.ring r).state = .running → at_ (s.stopRing r) r
  abortRing : ∀ {s r}, at_ s r → (s.ring r).state.serving = true → at_ (s.abortRing r) r
  flushRing : ∀ {s r}, at_ s r → (s.ring r).state = .running → at_ (s.flushRing r) r
  commandFields : ∀ {s r}, at_ s r → ∀ b v, at_ (s.modRing r (fun x => { x with command := b, result := v })) r

namespace KeptByRings

variable {at_ : State → RingId → Prop} (keeps : KeptByRings at_) {s t : State} {r : RingId}

include keeps

theorem same (h : ∀ r, at_ s r) (rings : ∀ r, t.ring r = s.ring r)
    (clear : ∀ r, t.downstreamClear r = s.downstreamClear r) : ∀ r, at_ t r :=
  fun r => keeps.congr (rings r) (clear r) (h r)

theorem unmoved (h : ∀ r, at_ s r) (rings : ∀ r, t.ring r = s.ring r) (tags : t.tags = s.tags)
    (issues : t.issueQueue = s.issueQueue) : ∀ r, at_ t r :=
  keeps.same h rings (downstreamClear_congr tags issues)

theorem eventsOnly (h : ∀ r, at_ s r) (rings : ∀ r, ∃ e, t.ring r = { s.ring r with events := e })
    (tags : t.tags = s.tags) (issues : t.issueQueue = s.issueQueue) : ∀ r, at_ t r := fun r => by
  obtain ⟨e, ring⟩ := rings r
  exact keeps.events ring (downstreamClear_congr tags issues r) (h r)

theorem only (h : ∀ r, at_ s r) (others : OnlyRing r s t) (own : at_ t r) : ∀ q, at_ t q := fun q => by
  by_cases hq : q = r
  · exact hq ▸ own
  · exact keeps.congr (others.ring q hq) (others.clear q hq) (h q)

theorem dispatchRequest (h : ∀ r, at_ s r) (q : UpRequest) : ∀ r, at_ (s.dispatchRequest q) r := by
  unfold State.dispatchRequest
  split
  · refine keeps.same h (fun _ => rfl) (fun r => ?_)
    rw [Bool.eq_iff_iff, downstreamClear_iff, downstreamClear_iff]
    simp [State.noDownstream, passIssue, Owner.ofRing, or_imp, forall_and]
  · exact keeps.unmoved h (fun _ => rfl) rfl rfl
  · rename_i r _
    exact keeps.eventsOnly (t := (s.raise r .guardHit).respondError q.requester q.tag) h
      (ring_events_of (r := r) (f := fun e => { e with flags := e.flags ||| RingFlag.guardHit.mask })
        (fun _ => rfl)) rfl rfl
  · rename_i r k cls
    exact keeps.only h (moved_putRequest s r q k).onlyRing
      (keeps.putRequest (h r) (classify_active (.inl ⟨k, cls⟩)) q k)
  · rename_i r k cls
    exact keeps.only h (moved_takeRequest s r q k).onlyRing
      (keeps.takeRequest (h r) (classify_active (.inr ⟨k, cls⟩)) q k)

theorem offer (h : ∀ r, at_ s r) (q : UpRequest) : ∀ r, at_ (s.offer q) r := by
  unfold State.offer
  split
  · exact h
  · split
    · exact keeps.unmoved h (fun _ => rfl) rfl rfl
    · exact keeps.dispatchRequest
        (keeps.unmoved (t := s.enterOutstanding q) h (fun _ => rfl) rfl rfl) q

theorem deliver (h : ∀ r, at_ s r) {i : DTag} {o : Owner} {q : Requester} {u : UTag} {g : BitVec 8}
    {timeout : Timer} (busy : s.tags[i] = .busy o q u g timeout) {e : TagEntry}
    (after : ∀ p, e.busyOf p = false) (status : Status) (data : List Word) :
    ∀ r, at_ ((s.setTag i e).deliver o q u g status data) r := by
  cases o with
  | pass =>
    refine keeps.same h (fun _ => rfl) (fun r => downstreamClear_setTag s ?_ (after r))
    rw [busy]
    rfl
  | put r =>
    have owned : s.tags[i].busyOf r = true := by rw [busy]; simp [TagEntry.busyOf, Owner.ofRing]
    exact keeps.only h ((onlyRing_setTag s owned after).trans
      (moved_deliver _ r (.put r) q u g status data (by simp [Owner.ofRing])).onlyRing)
      (keeps.putOutcome (h r) owned e after q u g status)
  | take r =>
    have owned : s.tags[i].busyOf r = true := by rw [busy]; simp [TagEntry.busyOf, Owner.ofRing]
    exact keeps.only h ((onlyRing_setTag s owned after).trans
      (moved_deliver _ r (.take r) q u g status data (by simp [Owner.ofRing])).onlyRing)
      (keeps.takeOutcome (h r) owned e after q u status data)

/-- An entry that no ring owns becomes FREE. -/
theorem freed (h : ∀ r, at_ s r) {i : DTag} {quarantine : Option Timer}
    (stale : s.tags[i] = .stale quarantine) : ∀ r, at_ (s.setTag i .free) r :=
  keeps.same h (fun _ => rfl) (fun r => downstreamClear_setTag s (by rw [stale]; rfl) rfl)

theorem ringCommand (h : ∀ r, at_ s r) (r : RingId) (c : RingCommand) : ∀ q, at_ (s.ringCommand r c) q := by
  have fields : ∀ t : State, at_ t r → OnlyRing r s t → ∀ q, at_ (t.modRing r
      (fun x => { x with command := c.code, result := s.commandResult r c })) q := fun t own others =>
    keeps.only h (others.trans (onlyRing_modRing t r _)) (keeps.commandFields own _ _)
  unfold State.ringCommand
  dsimp only
  split
  · rename_i accepted
    refine fields _ ?_ ?_
    · cases c with
      | start => exact keeps.startRing (h r) accepted
      | stop =>
        refine keeps.stopRing (h r) ?_
        cases st : (s.ring r).state <;> simp [State.commandResult, st] at accepted ⊢
      | abort =>
        refine keeps.abortRing (h r) ?_
        cases st : (s.ring r).state <;> simp [State.commandResult, st, RingState.serving] at accepted ⊢
      | flush =>
        refine keeps.flushRing (h r) ?_
        cases st : (s.ring r).state <;> simp [State.commandResult, st] at accepted ⊢
      | snapshot => exact keeps.events (ring_modEvents_self s r RingEvents.snapshot) rfl (h r)
    · cases c with
      | start => exact (moved_startRing s r).onlyRing
      | stop => exact (moved_stopRing s r).onlyRing
      | abort => exact (moved_abortRing s r).onlyRing
      | flush => exact (inner_flushRing s r).onlyRing
      | snapshot => exact onlyRing_modRing s r (fun x => { x with events := x.events.snapshot })
  · exact fields s (h r) ⟨fun _ _ => rfl, fun _ _ => rfl⟩

theorem softReset (h : ∀ r, at_ s r) : ∀ r, at_ s.softReset r := by
  unfold State.softReset
  have zeroed := eventsOnly_zeroEvents (s.modPort (fun p => { p with resetCause := .soft }))
  have start : ∀ r, at_ (((s.modPort (fun p => { p with resetCause := .soft })).zeroEvents).modSurvey
      Survey.stopped) r :=
    keeps.eventsOnly h (fun r => ⟨_, ring_zeroEvents _ r⟩) zeroed.tags zeroed.issueQueue
  refine List.foldlRecOn (motive := fun t => ∀ r, at_ t r) allRings State.softAbort start
    (fun t kept r _ => ?_)
  unfold State.softAbort
  split
  · exact keeps.only kept (moved_abortRing t r).onlyRing (keeps.abortRing (kept r) ‹_›)
  · exact kept

theorem everyEvent : KeptByEvents (fun s => ∀ r, at_ s r) where
  queue := fun h _ => keeps.unmoved h (fun _ => rfl) rfl rfl
  poweredOn := fun {s} _ pins r => keeps.reset (ring_reset r) ((downstreamClear_iff _ r).2
    ⟨fun i => by simp [State.poweredOn, State.reset, TagEntry.busyOf], by simp [State.poweredOn, State.reset]⟩)
  assertReset := fun {s} _ r => keeps.reset (ring_reset r) ((downstreamClear_iff _ r).2
    ⟨fun i => by
      simp only [State.assertReset, Fin.getElem_fin, Vector.getElem_ofFn]
      cases s.tags[i.val] <;> rfl, by simp [State.assertReset, State.reset]⟩)
  releaseReset := fun {s} h pins => keeps.same h (fun _ => rfl) (downstreamClear_of_tags rfl fun i r => by
    simp only [State.releaseReset, Fin.getElem_fin, Vector.getElem_ofFn]
    cases s.tags[i.val] <;> rfl)
  tick := fun h => keeps.unmoved h (fun _ => rfl) rfl rfl
  offer := keeps.offer
  issueHead := fun {s} h => keeps.same h (ring_issueHead s) (downstreamClear_issueHead s)
  matchResponse := fun {s} h i status data => by
    unfold State.matchResponse
    split
    · exact h
    · exact keeps.freed h ‹_›
    · exact keeps.deliver h ‹_› (fun _ => rfl) status data
  timeoutTag := fun {s} h i => by
    unfold State.timeoutTag
    split
    · exact h
    · exact h
    · split
      · exact keeps.deliver h ‹_› (fun _ => rfl) .error []
      · exact h
  quarantineTag := fun {s} h i => by
    unfold State.quarantineTag
    split
    · exact h
    · exact h
    · split
      · exact keeps.freed h ‹_›
      · exact h
  putParkExpiry := fun {s} h r => keeps.only h (moved_putParkExpiry s r).onlyRing (keeps.putParkExpiry (h r))
  takeParkExpiry := fun {s} h r => keeps.only h (moved_takeParkExpiry s r).onlyRing (keeps.takeParkExpiry (h r))
  ageExpiry := fun {s} h r => keeps.only h (moved_ageExpiry s r).onlyRing (keeps.ageExpiry (h r))
  searchTimerExpiry := fun {s} h r =>
    keeps.only h (inner_searchTimerExpiry s r).onlyRing (keeps.searchTimerExpiry (h r))
  secondBoundary := fun {s} h r => keeps.only h (moved_secondBoundary s r).onlyRing (keeps.secondBoundary (h r))
  lateExpiry := fun {s} h r => keeps.only h (moved_lateExpiry s r).onlyRing (keeps.lateExpiry (h r))
  settle := fun {s} h r => keeps.only h (moved_settle s r).onlyRing (keeps.settle (h r))
  ringCommand := keeps.ringCommand
  softReset := keeps.softReset
  surveySampleOcc := fun {s} h => keeps.eventsOnly h (fun r => ⟨(s.ring r).events, by
      unfold State.surveySampleOcc State.surveySample
      dsimp only
      split
      · rfl
      · split
        · split <;> rfl
        · rfl⟩)
    (inner_surveySampleOcc s 0).tags (by
      unfold State.surveySampleOcc State.surveySample
      dsimp only
      split
      · rfl
      · split
        · split <;> rfl
        · rfl)
  modSurvey := fun h _ => keeps.unmoved h (fun _ => rfl) rfl rfl
  syncLevel := fun h _ => keeps.unmoved h (fun _ => rfl) rfl rfl
  coalescingTick := fun {s} h => keeps.unmoved h (ring_coalescingTick s)
    (eventsOnly_coalescingTick s).tags (eventsOnly_coalescingTick s).issueQueue
  endPulse := fun {s} h => keeps.unmoved h (ring_endPulse s)
    (eventsOnly_endPulse s).tags (eventsOnly_endPulse s).issueQueue
  modPort := fun h _ _ => keeps.unmoved h (fun _ => rfl) rfl rfl
  latch := fun {s} h f j => keeps.unmoved h (ring_latch s f j)
    (by unfold State.latch; split <;> rfl) (by unfold State.latch; split <;> rfl)
  clearRingFlags := fun {s} h r mask => keeps.eventsOnly h (ring_clearRingFlags s r mask)
    (eventsOnly_clearRingFlags s r mask).tags (eventsOnly_clearRingFlags s r mask).issueQueue
  clearGlobalFlags := fun {s} h mask => keeps.unmoved h (ring_afterClear _)
    (eventsOnly_clearGlobalFlags s mask).tags (eventsOnly_clearGlobalFlags s mask).issueQueue
  setRingEnables := fun {s} h r en => keeps.eventsOnly h (ring_setRingEnables s r en)
    (eventsOnly_setRingEnables s r en).tags (eventsOnly_setRingEnables s r en).issueQueue
  setGlobalEnables := fun {s} h en => keeps.unmoved h (ring_releaseIfNone _)
    (eventsOnly_setGlobalEnables s en).tags (eventsOnly_setGlobalEnables s en).issueQueue
  setPeriod := fun {s} h p => keeps.unmoved h (ring_setPeriod s p)
    (eventsOnly_setPeriod s p).tags (eventsOnly_setPeriod s p).issueQueue
  downTimeout := fun h _ => keeps.unmoved h (fun _ => rfl) rfl rfl
  configure := fun {s} h r c idle =>
    keeps.only h (onlyRing_modRing s r _) (keeps.configure (h r) c idle)

end KeptByRings

/-! ## No ring overdue (R33, R35) -/

theorem drainCondition_iff (s : State) (r : RingId) : s.drainCondition r = true ↔ s.drained r := by
  unfold State.drainCondition State.drained PutEngine.slotOpen
  dsimp only
  cases (s.ring r).put.phase <;> simp [downstreamClear_iff, and_assoc]

theorem idleCondition_iff (s : State) (r : RingId) : s.idleCondition r = true ↔
    ((s.ring r).state = .draining ∧ s.drained r) ∨ ((s.ring r).state = .aborting ∧ s.noDownstream r) := by
  unfold State.idleCondition
  cases (s.ring r).state <;> simp [drainCondition_iff, downstreamClear_iff]

theorem ring_surveySourceLoss (s : State) (r q : RingId) : (s.surveySourceLoss r).ring q = s.ring q := by
  unfold State.surveySourceLoss
  split <;> rfl

theorem ring_enterIdle_self (s : State) (r : RingId) : (s.enterIdle r).ring r = (s.ring r).atIdle := by
  unfold State.enterIdle
  rw [ring_raise_self, ring_surveySourceLoss, ring_modRing_self]
  rfl

theorem idleCondition_of_state {s : State} {r : RingId}
    (h : (s.ring r).state = .idle ∨ (s.ring r).state = .running) : s.idleCondition r = false := by
  unfold State.idleCondition
  rcases h with h | h <;> rw [h]

/-- After the Ring Table's test the condition holds no more. -/
theorem idleCondition_settle (s : State) (r : RingId) : (s.settle r).idleCondition r = false := by
  unfold State.settle
  split
  · exact idleCondition_of_state (.inl (by rw [ring_enterIdle_self]; rfl))
  · exact Bool.eq_false_of_not_eq_true ‹_›

/-- The ring without what no condition and no position rests on: events, monitors, records and command
fields. -/
def bareRing (x : Ring) : Ring :=
  { x with
    command := 0
    result := .none
    put := { x.put with refusal := RefusalRecord.reset }
    take := { x.take with refusal := RefusalRecord.reset }
    align := AlignChecker.reset
    cadence := CadenceMonitor.reset
    secondTimer := .none
    events := RingEvents.reset }

/-- From `s` to `t` ring `r` is the same but for those, and its requests with the Memory Port are. -/
structure SameBare (r : RingId) (s t : State) : Prop where
  ring : bareRing (t.ring r) = bareRing (s.ring r)
  tags : t.tags = s.tags
  issues : t.issueQueue = s.issueQueue

theorem SameBare.refl (r : RingId) (s : State) : SameBare r s s := ⟨rfl, rfl, rfl⟩

theorem SameBare.trans {r : RingId} {s t u : State} (a : SameBare r s t) (b : SameBare r t u) :
    SameBare r s u := ⟨b.ring.trans a.ring, b.tags.trans a.tags, b.issues.trans a.issues⟩

theorem SameBare.clear {r : RingId} {s t : State} (h : SameBare r s t) (q : RingId) :
    t.downstreamClear q = s.downstreamClear q := downstreamClear_congr h.tags h.issues q

theorem sameBare_modRing (s : State) (r : RingId) (f : Ring → Ring)
    (h : bareRing (f (s.ring r)) = bareRing (s.ring r)) : SameBare r s (s.modRing r f) :=
  ⟨by rw [ring_modRing_self, h], rfl, rfl⟩

theorem sameBare_raise (s : State) (r : RingId) (f : RingFlag) : SameBare r s (s.raise r f) :=
  ⟨by rw [ring_raise_self]; rfl, rfl, rfl⟩

theorem sameBare_bump (s : State) (r : RingId) (c : Counter) (n : Nat) : SameBare r s (s.bump r c n) :=
  ⟨by rw [ring_bump_self]; rfl, rfl, rfl⟩

theorem sameBare_modCadence (s : State) (r : RingId) (f : CadenceMonitor → CadenceMonitor) :
    SameBare r s (s.modCadence r f) :=
  sameBare_modRing s r (fun x => { x with cadence := f x.cadence }) rfl

theorem sameBare_modAlign (s : State) (r : RingId) (f : AlignChecker → AlignChecker) :
    SameBare r s (s.modAlign r f) :=
  sameBare_modRing s r (fun x => { x with align := f x.align }) rfl

theorem sameBare_recordPut (s : State) (r : RingId) (c : Cause) (q : Requester) (k : Nat) :
    SameBare r s (s.recordPut r c q k) :=
  ⟨by rw [ring_recordPut_self]; rfl, rfl, rfl⟩

theorem sameBare_recordTake (s : State) (r : RingId) (c : Cause) (q : Requester) (k : Nat) :
    SameBare r s (s.recordTake r c q k) :=
  ⟨by rw [ring_recordTake_self]; rfl, rfl, rfl⟩

theorem sameBare_respond (s : State) (r : RingId) (q : Requester) (u : UTag) (status : Status)
    (data : List Word) : SameBare r s (s.respond q u status data) := ⟨rfl, rfl, rfl⟩

theorem sameBare_cadenceLate (s : State) (r : RingId) : SameBare r s (s.cadenceLate r) := by
  unfold State.cadenceLate
  dsimp only
  split
  · exact sameBare_modCadence s r _
  · split
    · exact (((((sameBare_modCadence s r _).trans (sameBare_modCadence _ r _)).trans
        (sameBare_raise _ r _)).trans (sameBare_bump _ r _ 1)).trans (sameBare_modCadence _ r _)).trans
        (sameBare_raise _ r _)
    · exact (((sameBare_modCadence s r _).trans (sameBare_modCadence _ r _)).trans
        (sameBare_raise _ r _)).trans (sameBare_bump _ r _ 1)

theorem sameBare_alignBypass (s : State) (r : RingId) : SameBare r s (s.alignBypass r) :=
  (sameBare_modAlign s r _).trans (sameBare_raise _ r _)

theorem idleCondition_of_bare {s t : State} {r : RingId} (ring : bareRing (t.ring r) = bareRing (s.ring r))
    (clear : t.downstreamClear r = s.downstreamClear r) : t.idleCondition r = s.idleCondition r := by
  have state : (t.ring r).state = (s.ring r).state := congrArg (fun x => x.state) ring
  have phase : (t.ring r).put.phase = (s.ring r).put.phase := congrArg (fun x => x.put.phase) ring
  have occ : (t.ring r).occ = (s.ring r).occ := congrArg (fun x => x.occ) ring
  have present : (t.ring r).take.record.present = (s.ring r).take.record.present :=
    congrArg (fun x => x.take.record.present) ring
  have putHold : (t.ring r).put.hold = (s.ring r).put.hold := congrArg (fun x => x.put.hold) ring
  have takeHold : (t.ring r).take.hold = (s.ring r).take.hold := congrArg (fun x => x.take.hold) ring
  unfold State.idleCondition State.drainCondition PutEngine.slotOpen
  simp only [state, phase, occ, present, putHold, takeHold, clear]

theorem SameBare.idleCondition {s t : State} {r : RingId} (same : SameBare r s t)
    (h : s.idleCondition r = false) : t.idleCondition r = false :=
  (idleCondition_of_bare same.ring (same.clear r)).trans h

theorem idleCondition_putRequest {s : State} {r : RingId} (h : s.idleCondition r = false) (q : UpRequest)
    (k : Nat) : (s.putRequest r q k).idleCondition r = false := by
  unfold State.putRequest State.admitPut
  split
  · exact ((sameBare_recordPut s r _ _ _).trans (sameBare_respond _ r _ _ _ _)).idleCondition h
  · dsimp only
    split
    · exact (sameBare_respond s r _ _ _ _).idleCondition h
    · exact idleCondition_settle _ r

theorem idleCondition_takeRequest {s : State} {r : RingId} (h : s.idleCondition r = false) (q : UpRequest)
    (k : Nat) : (s.takeRequest r q k).idleCondition r = false := by
  unfold State.takeRequest State.admitTake
  split
  · exact ((sameBare_recordTake s r _ _ _).trans (sameBare_respond _ r _ _ _ _)).idleCondition h
  · dsimp only
    split
    · exact (sameBare_respond s r _ _ _ _).idleCondition h
    · split
      · exact (sameBare_respond s r _ _ _ _).idleCondition h
      · exact idleCondition_settle _ r

theorem idleCondition_ite_settle {s t : State} {r : RingId} {c : Prop} [Decidable c]
    (h : s.idleCondition r = false) : (if c then t.settle r else s).idleCondition r = false := by
  split
  · exact idleCondition_settle t r
  · exact h

theorem idleCondition_lateExpiry {s : State} {r : RingId} (h : s.idleCondition r = false) :
    (s.lateExpiry r).idleCondition r = false := by
  unfold State.lateExpiry
  dsimp only
  split
  · split
    · exact idleCondition_settle _ r
    · exact (sameBare_cadenceLate s r).idleCondition h
  · exact h

theorem sameBare_searchTimerExpiry (s : State) (r : RingId) : SameBare r s (s.searchTimerExpiry r) := by
  unfold State.searchTimerExpiry
  dsimp only
  split
  · exact sameBare_alignBypass s r
  · exact .refl r s

theorem sameBare_secondBoundary (s : State) (r : RingId) : SameBare r s (s.secondBoundary r) := by
  unfold State.secondBoundary
  split
  · exact .refl r s
  · split
    · exact sameBare_modRing s r _ rfl
    · exact .refl r s

theorem keptByRings_noRingOverdue : KeptByRings (fun s r => s.idleCondition r = false) where
  congr := fun ring clear h => (idleCondition_of_bare (by rw [ring]) clear).trans h
  reset := fun ring _ => idleCondition_of_state (.inl (by rw [ring]; rfl))
  events := fun ring clear h => (idleCondition_of_bare (by rw [ring]; rfl) clear).trans h
  configure := fun _ c idle => idleCondition_of_state (.inl (by rw [ring_modRing_self]; exact idle))
  putRequest := fun h _ q k => idleCondition_putRequest h q k
  takeRequest := fun h _ q k => idleCondition_takeRequest h q k
  putOutcome := fun _ _ _ _ _ _ _ _ => idleCondition_settle _ _
  takeOutcome := fun _ _ _ _ _ _ _ _ => idleCondition_settle _ _
  putParkExpiry := idleCondition_ite_settle
  takeParkExpiry := idleCondition_ite_settle
  ageExpiry := idleCondition_ite_settle
  searchTimerExpiry := fun h => (sameBare_searchTimerExpiry _ _).idleCondition h
  secondBoundary := fun h => (sameBare_secondBoundary _ _).idleCondition h
  lateExpiry := idleCondition_lateExpiry
  settle := fun _ => idleCondition_settle _ _
  startRing := fun _ _ => idleCondition_of_state (.inr (by rw [ring_startRing_self]; rfl))
  stopRing := fun _ _ => idleCondition_settle _ _
  abortRing := fun _ _ => idleCondition_settle _ _
  flushRing := fun {s r} _ running =>
    idleCondition_of_state (.inr ((inner_flushRing s r).ring.state.trans running))
  commandFields := fun h _ _ => (sameBare_modRing _ _ _ rfl).idleCondition h

/-- Settles O59: every event that can make a ring's condition hold ends in the Ring Table's test, and no event
of one ring changes what decides the condition of another. -/
theorem everyStepKeepsNoRingOverdue : Obligations.EveryStepKeepsNoRingOverdue :=
  keptByRings_noRingOverdue.everyEvent.everyStep

end Sys2Proof.Laws

/-! PROOFS. The positions of a ring (R40 to R43, R57, R125, R133): the places of its roles under each move of
the engines, the arithmetic modulo N behind them; with O56. -/

namespace Sys2Proof.Laws

open Sys2Proof.Machine

/-! ## Places modulo N -/

/-- A value below 2N wraps at most once. -/
theorem mod_of_lt_twice {n a : Nat} (h : a < 2 * n) : a % n = if a < n then a else a - n := by
  split
  · exact Nat.mod_eq_of_lt ‹_›
  · rw [Nat.mod_eq_sub_mod (by omega), Nat.mod_eq_of_lt (by omega)]

/-- How far position `p` stands from `t` on, in a ring of `n` positions. -/
def distance (n t p : Nat) : Nat := (p + n - t) % n

theorem distance_eq {n t p : Nat} (ht : t < n) (hp : p < n) :
    distance n t p = if t ≤ p then p - t else p + n - t := by
  unfold distance
  rw [mod_of_lt_twice (by omega)]
  split <;> split <;> omega

theorem distance_lt {n t p : Nat} (ht : t < n) : distance n t p < n := Nat.mod_lt _ (by omega)

/-- Positions that depart come off the distance. -/
theorem distance_depart {n t p k : Nat} (ht : t < n) (hp : p < n) (hk : k ≤ distance n t p) :
    distance n ((t + k) % n) p = distance n t p - k := by
  have hn : (t + k) % n < n := Nat.mod_lt _ (by omega)
  have far := distance_lt (p := p) ht
  rw [distance_eq ht hp] at hk far ⊢
  rw [distance_eq hn hp]
  rw [mod_of_lt_twice (show t + k < 2 * n by omega)] at hn ⊢
  split at hk <;> split at hn <;> split <;> split <;> omega

/-- The position before `t` is the farthest from it. -/
theorem distance_before {n t : Nat} (ht : t < n) : distance n t ((t + n - 1) % n) = n - 1 := by
  have hp : (t + n - 1) % n < n := Nat.mod_lt _ (by omega)
  rw [distance_eq ht hp]
  rw [mod_of_lt_twice (show t + n - 1 < 2 * n by omega)] at hp ⊢
  split at hp <;> split <;> split <;> omega

theorem before_next {n t : Nat} (ht : t < n) : ((t + 1) % n + n - 1) % n = t := by
  have h1 : (t + 1) % n < n := Nat.mod_lt _ (by omega)
  rw [mod_of_lt_twice (show (t + 1) % n + n - 1 < 2 * n by omega)]
  rw [mod_of_lt_twice (show t + 1 < 2 * n by omega)] at h1 ⊢
  split at h1 <;> split <;> split <;> omega

/-- The position `k` on from `t` is the only one at that distance. -/
theorem distance_ne {n t p k : Nat} (ht : t < n) (hp : p < n) (hk : k < n) (ne : p ≠ (t + k) % n) :
    distance n t p ≠ k := by
  rw [distance_eq ht hp]
  rw [mod_of_lt_twice (show t + k < 2 * n by omega)] at ne
  split <;> split at ne <;> omega

theorem distance_add {n t k : Nat} (ht : t < n) (hk : k < n) : distance n t ((t + k) % n) = k := by
  have hp : (t + k) % n < n := Nat.mod_lt _ (by omega)
  rw [distance_eq ht hp]
  rw [mod_of_lt_twice (show t + k < 2 * n by omega)] at hp ⊢
  split at hp <;> split <;> split <;> omega

/-- Departures from the head leave where the published positions end. -/
theorem end_depart {n t k occ : Nat} (hk : k ≤ occ) : ((t + k) % n + (occ - k)) % n = (t + occ) % n := by
  rw [Nat.mod_add_mod]
  congr 1
  omega

/-! ## The places of a ring's roles -/

@[simp] theorem bit_false : bit false = 0 := rfl

@[simp] theorem bit_true : bit true = 1 := rfl

theorem bit_le_one (b : Bool) : bit b ≤ 1 := by cases b <;> simp

/-- The ring's positions are sound where a slot counts as open if `o`. -/
structure Placed (x : Ring) (o : Bool) : Prop where
  head : x.t < x.config.slots
  slot : o = true → x.put.position = (x.t + x.occ) % x.config.slots
  message : x.config.kind = .message → x.occ + bit x.take.record.present + bit o ≤ x.config.slots ∧
    x.ageTimer = .none ∧ (x.take.record.present = true →
      x.take.record.position = (x.t + x.config.slots - 1) % x.config.slots)
  marks : x.config.kind = .paced → x.config.highMark.toNat + 2 ≤ x.config.slots ∧
    1 ≤ x.config.centre.toNat ∧ x.config.centre.toNat + 1 ≤ x.config.highMark.toNat
  paced : x.config.kind = .paced → x.occ ≤ x.config.highMark.toNat ∧ (x.take.record.present = true →
    x.take.record.position < x.config.slots ∧
      x.occ + bit o ≤ distance x.config.slots x.t x.take.record.position)

theorem positionsSound_iff (x : Ring) : x.positionsSound ↔ Placed x x.put.slotOpen := by
  unfold Ring.positionsSound
  constructor
  · rintro ⟨head, slot, kinds⟩
    refine ⟨head, slot, fun kind => ?_, fun kind => ?_, fun kind => ?_⟩
    · rw [kind] at kinds
      exact kinds
    · rw [kind] at kinds
      exact ⟨kinds.2.1, kinds.2.2.1, kinds.2.2.2.1⟩
    · rw [kind] at kinds
      exact ⟨kinds.1, kinds.2.2.2.2⟩
  · rintro ⟨head, slot, message, marks, paced⟩
    refine ⟨head, slot, ?_⟩
    cases kind : x.config.kind with
    | message => exact message kind
    | paced =>
      obtain ⟨two, one, below⟩ := marks kind
      exact ⟨(paced kind).1, two, one, below, (paced kind).2⟩

/-- The fields that place the roles. -/
structure SamePlaces (x y : Ring) : Prop where
  config : y.config = x.config
  t : y.t = x.t
  occ : y.occ = x.occ
  ageTimer : y.ageTimer = x.ageTimer
  phase : y.put.phase = x.put.phase
  slot : y.put.position = x.put.position
  present : y.take.record.present = x.take.record.present
  taken : y.take.record.position = x.take.record.position

theorem SamePlaces.trans {x y z : Ring} (a : SamePlaces x y) (b : SamePlaces y z) : SamePlaces x z :=
  ⟨b.config.trans a.config, b.t.trans a.t, b.occ.trans a.occ, b.ageTimer.trans a.ageTimer,
    b.phase.trans a.phase, b.slot.trans a.slot, b.present.trans a.present, b.taken.trans a.taken⟩

theorem samePlaces_of_bare {x y : Ring} (h : bareRing y = bareRing x) : SamePlaces x y :=
  ⟨congrArg (fun x => x.config) h, congrArg (fun x => x.t) h, congrArg (fun x => x.occ) h,
    congrArg (fun x => x.ageTimer) h, congrArg (fun x => x.put.phase) h,
    congrArg (fun x => x.put.position) h, congrArg (fun x => x.take.record.present) h,
    congrArg (fun x => x.take.record.position) h⟩

theorem Placed.congr {x y : Ring} {o : Bool} (h : Placed x o) (config : y.config = x.config) (t : y.t = x.t)
    (occ : y.occ = x.occ) (ageTimer : y.ageTimer = x.ageTimer) (slot : y.put.position = x.put.position)
    (present : y.take.record.present = x.take.record.present)
    (taken : y.take.record.position = x.take.record.position) : Placed y o := by
  obtain ⟨head, open_, message, marks, paced⟩ := h
  constructor
  · rw [config, t]; exact head
  · rw [config, t, occ, slot]; exact open_
  · rw [config, t, occ, ageTimer, present, taken]; exact message
  · rw [config]; exact marks
  · rw [config, t, occ, present, taken]; exact paced

theorem Placed.same {x y : Ring} {o : Bool} (h : Placed x o) (same : SamePlaces x y) : Placed y o :=
  h.congr same.config same.t same.occ same.ageTimer same.slot same.present same.taken

/-- A slot that is no longer open takes no place. -/
theorem Placed.close {x : Ring} {o : Bool} (h : Placed x o) : Placed x false where
  head := h.head
  slot := nofun
  message := fun kind => by
    obtain ⟨fits, timer, taken⟩ := h.message kind
    exact ⟨by rw [bit_false]; omega, timer, taken⟩
  marks := h.marks
  paced := fun kind => by
    obtain ⟨below, taken⟩ := h.paced kind
    exact ⟨below, fun present => ⟨(taken present).1, by
      have far := (taken present).2
      rw [bit_false]
      omega⟩⟩

/-- The take record is cleared, or is none. -/
theorem Placed.noTake {x y : Ring} {o : Bool} (h : Placed x o) (config : y.config = x.config) (t : y.t = x.t)
    (occ : y.occ = x.occ) (ageTimer : y.ageTimer = x.ageTimer) (slot : y.put.position = x.put.position)
    (present : y.take.record.present = false) : Placed y o where
  head := by rw [config, t]; exact h.head
  slot := by rw [config, t, occ, slot]; exact h.slot
  message := fun kind => by
    rw [config] at kind ⊢
    obtain ⟨fits, timer, -⟩ := h.message kind
    rw [present, occ, ageTimer]
    exact ⟨by rw [bit_false]; omega, timer, nofun⟩
  marks := by rw [config]; exact h.marks
  paced := fun kind => by
    rw [config] at kind ⊢
    rw [present, occ]
    exact ⟨(h.paced kind).1, nofun⟩

/-! ## Departures, takes and publishes -/

/-- Departures from the head, with no take to stand before it on a MESSAGE ring (R42). -/
theorem placed_departN {x : Ring} {o : Bool} (h : Placed x o) {n : Nat} (some : n ≤ x.occ)
    (free : x.config.kind = .paced ∨ x.take.record.present = false) : Placed (x.departN n) o where
  head := Nat.mod_lt _ (Nat.zero_lt_of_lt h.head)
  slot := fun opened => (h.slot opened).trans (end_depart some).symm
  message := fun kind => by
    obtain ⟨fits, timer, -⟩ := h.message kind
    have absent : x.take.record.present = false := free.resolve_left (by
      rw [show x.config.kind = .message from kind]
      simp)
    refine ⟨?_, timer, fun present => absurd (absent.symm.trans present) (by simp)⟩
    show x.occ - n + bit x.take.record.present + bit o ≤ x.config.slots
    omega
  marks := h.marks
  paced := fun kind => by
    obtain ⟨below, taken⟩ := h.paced kind
    refine ⟨(Nat.sub_le x.occ n).trans below, fun present => ?_⟩
    obtain ⟨within, far⟩ := taken present
    refine ⟨within, ?_⟩
    show x.occ - n + bit o ≤
      distance x.config.slots ((x.t + n) % x.config.slots) x.take.record.position
    rw [distance_depart h.head within (by omega)]
    omega

/-- A take stands at the position before `t` (R110, R128). -/
theorem placed_take {x y : Ring} {o : Bool} (h : Placed x o) (config : y.config = x.config) (t : y.t = x.t)
    (occ : y.occ = x.occ) (ageTimer : y.ageTimer = x.ageTimer) (slot : y.put.position = x.put.position)
    (room : x.config.kind = .message → x.occ + 1 + bit o ≤ x.config.slots)
    (taken : y.take.record.position = (x.t + x.config.slots - 1) % x.config.slots) : Placed y o where
  head := by rw [config, t]; exact h.head
  slot := by rw [config, t, occ, slot]; exact h.slot
  message := fun kind => by
    rw [config] at kind ⊢
    obtain ⟨-, timer, -⟩ := h.message kind
    have fits := room kind
    rw [occ, ageTimer, t]
    exact ⟨by have := bit_le_one y.take.record.present; omega, timer, fun _ => taken⟩
  marks := by rw [config]; exact h.marks
  paced := fun kind => by
    rw [config] at kind ⊢
    obtain ⟨two, -, -⟩ := h.marks kind
    have below := (h.paced kind).1
    rw [occ, t, taken, distance_before h.head]
    refine ⟨below, fun _ => ⟨Nat.mod_lt _ (Nat.zero_lt_of_lt h.head), ?_⟩⟩
    have := bit_le_one o
    omega

/-- The ring once the open slot has entered the published set, before the slip (R41). -/
def enteredRing (x : Ring) : Ring := { x with occ := x.occ + 1 }

/-- The ring once the drop slip of a publish has been made, if one is due (R125). -/
def slippedRing (x : Ring) : Ring := if x.slipCount = 0 then x else x.departN x.slipCount

/-- A publish takes the place of the open slot; the slip brings a PACED ring back to C (R41, R125). -/
theorem placed_publish {x : Ring} (h : Placed x true) : Placed (slippedRing (enteredRing x)) false := by
  have entered : x.config.kind = .message → Placed (enteredRing x) false := fun kind =>
    { head := h.head
      slot := nofun
      message := fun _ => by
        obtain ⟨fits, timer, taken⟩ := h.message kind
        refine ⟨?_, timer, taken⟩
        show x.occ + 1 + bit x.take.record.present + bit false ≤ x.config.slots
        simp only [bit_false, bit_true] at *
        omega
      marks := h.marks
      paced := fun paced => absurd (kind.symm.trans paced) (by simp) }
  cases kind : x.config.kind with
  | message =>
    have noSlip : (enteredRing x).slipCount = 0 := if_neg (by simp [enteredRing, kind])
    unfold slippedRing
    rw [if_pos noSlip]
    exact entered kind
  | paced =>
    obtain ⟨two, one, below⟩ := h.marks kind
    obtain ⟨high, taken⟩ := h.paced kind
    have slip : (enteredRing x).slipCount =
        if x.config.highMark.toNat < x.occ + 1 then x.occ + 1 - x.config.centre.toNat else 0 := by
      unfold Ring.slipCount enteredRing
      simp [kind]
    have taken : x.take.record.present = true → x.take.record.position < x.config.slots ∧
        x.occ + 1 ≤ distance x.config.slots x.t x.take.record.position := taken
    unfold slippedRing
    split
    · rename_i none
      have fits : x.occ + 1 ≤ x.config.highMark.toNat := by
        rw [slip] at none
        split at none <;> omega
      exact ⟨h.head, nofun, fun message => absurd (kind.symm.trans message) (by simp), fun _ => ⟨two, one, below⟩,
        fun _ => ⟨fits, taken⟩⟩
    · rename_i due
      rw [slip] at due ⊢
      split at due
      · rename_i above
        rw [if_pos above]
        refine ⟨Nat.mod_lt _ (Nat.zero_lt_of_lt h.head), nofun,
          fun message => absurd (kind.symm.trans message) (by simp), fun _ => ⟨two, one, below⟩, fun _ => ⟨?_, ?_⟩⟩
        · show x.occ + 1 - (x.occ + 1 - x.config.centre.toNat) ≤ x.config.highMark.toNat
          omega
        · intro present
          have within := (taken present).1
          have far := (taken present).2
          refine ⟨within, ?_⟩
          show x.occ + 1 - (x.occ + 1 - x.config.centre.toNat) + bit false ≤
            distance x.config.slots ((x.t + (x.occ + 1 - x.config.centre.toNat)) % x.config.slots)
              x.take.record.position
          rw [distance_depart h.head within (by omega), bit_false]
          omega
      · exact absurd rfl due

/-- A header opens its slot at the end of the published positions (R58, R133). -/
theorem placed_open {x y : Ring} (h : Placed x false) (config : y.config = x.config) (t : y.t = x.t)
    (occ : y.occ = x.occ) (ageTimer : y.ageTimer = x.ageTimer)
    (slot : y.put.position = (x.t + x.occ) % x.config.slots)
    (present : y.take.record.present = x.take.record.present)
    (taken : y.take.record.position = x.take.record.position) (room : x.hasRoom = true)
    (apart : x.config.kind = .paced → x.take.record.present = true →
      x.take.record.position ≠ (x.t + x.occ) % x.config.slots) : Placed y true where
  head := by rw [config, t]; exact h.head
  slot := fun _ => by rw [config, t, occ]; exact slot
  message := fun kind => by
    rw [config] at kind ⊢
    obtain ⟨-, timer, before⟩ := h.message kind
    have fits : x.occ + bit x.take.record.present + 1 ≤ x.config.slots := by
      simpa [Ring.hasRoom, kind] using room
    rw [occ, ageTimer, present, taken, t]
    exact ⟨fits, timer, before⟩
  marks := by rw [config]; exact h.marks
  paced := fun kind => by
    rw [config] at kind ⊢
    obtain ⟨two, -, -⟩ := h.marks kind
    obtain ⟨below, within⟩ := h.paced kind
    rw [occ, present, taken, t]
    refine ⟨below, fun there => ?_⟩
    obtain ⟨inside, far⟩ := within there
    have ne := distance_ne h.head inside (show x.occ < x.config.slots by omega) (apart kind there)
    refine ⟨inside, ?_⟩
    simp only [bit_false, bit_true] at *
    omega

end Sys2Proof.Laws

/-! PROOFS. The engines keep the positions of their ring (R40 to R43, R57, R125, R133): one lemma for each
shared operation; with O56. -/

namespace Sys2Proof.Laws

open Sys2Proof.Machine

/-! ## The roles while the engines run -/

/-- The places of a ring's roles while its engines run. While a commit completion publishes the open slot
(`completing`) its position is counted as published and no more as open. -/
structure RolesSound (completing : Bool) (x : Ring) : Prop where
  phase : completing = true → x.put.phase = .committing
  placed : Placed x (!completing && x.put.slotOpen)

theorem rolesSound_iff (x : Ring) : RolesSound false x ↔ x.positionsSound := by
  rw [positionsSound_iff]
  exact ⟨fun h => h.placed, fun h => ⟨nofun, h⟩⟩

theorem slotOpen_congr {p q : PutEngine} (h : p.phase = q.phase) : p.slotOpen = q.slotOpen := by
  unfold PutEngine.slotOpen
  rw [h]

section

variable {c : Bool} {x y : Ring}

theorem RolesSound.of_placed (h : RolesSound c x) (phase : y.put.phase = x.put.phase)
    (placed : Placed y (!c && x.put.slotOpen)) : RolesSound c y :=
  ⟨fun completing => phase.trans (h.phase completing), by rw [slotOpen_congr phase]; exact placed⟩

theorem RolesSound.same (h : RolesSound c x) (same : SamePlaces x y) : RolesSound c y :=
  h.of_placed same.phase (h.placed.same same)

theorem RolesSound.bare (h : RolesSound c x) (same : bareRing y = bareRing x) : RolesSound c y :=
  h.same (samePlaces_of_bare same)

theorem RolesSound.noTake (h : RolesSound c x) (config : y.config = x.config) (t : y.t = x.t)
    (occ : y.occ = x.occ) (ageTimer : y.ageTimer = x.ageTimer) (put : y.put = x.put)
    (present : y.take.record.present = false) : RolesSound c y :=
  h.of_placed (by rw [put]) (h.placed.noTake config t occ ageTimer (by rw [put]) present)

end

/-! ## Updates of the engines' other fields -/

section

variable {c : Bool} {s t : State} {r : RingId}

theorem SameBare.rolesSound (same : SameBare r s t) (h : RolesSound c (s.ring r)) : RolesSound c (t.ring r) :=
  h.bare same.ring

theorem rolesSound_modPut (h : RolesSound c (s.ring r)) (f : PutEngine → PutEngine)
    (phase : (f (s.ring r).put).phase = (s.ring r).put.phase)
    (slot : (f (s.ring r).put).position = (s.ring r).put.position) :
    RolesSound c ((s.modPut r f).ring r) := by
  rw [ring_modPut_self]
  exact h.same ⟨rfl, rfl, rfl, rfl, phase, slot, rfl, rfl⟩

theorem rolesSound_modTake (h : RolesSound c (s.ring r)) (f : TakeEngine → TakeEngine)
    (present : (f (s.ring r).take).record.present = (s.ring r).take.record.present)
    (taken : (f (s.ring r).take).record.position = (s.ring r).take.record.position) :
    RolesSound c ((s.modTake r f).ring r) := by
  rw [ring_modTake_self]
  exact h.same ⟨rfl, rfl, rfl, rfl, rfl, rfl, present, taken⟩

theorem rolesSound_clearTake (h : RolesSound c (s.ring r)) : RolesSound c ((s.clearTake r).ring r) := by
  unfold State.clearTake
  rw [ring_modTake_self]
  exact h.noTake rfl rfl rfl rfl rfl rfl

theorem sameBare_refusePut (s : State) (r : RingId) (q : PutReq) (c : Cause) :
    SameBare r s (s.refusePut r q c) := (sameBare_recordPut s r _ _ _).trans (sameBare_respond _ r _ _ _ _)

theorem sameBare_refuseTake (s : State) (r : RingId) (q : TakeReq) (c : Cause) :
    SameBare r s (s.refuseTake r q c) := (sameBare_recordTake s r _ _ _).trans (sameBare_respond _ r _ _ _ _)

theorem sameBare_surveySample (s : State) (r : RingId) (n : Nat) : SameBare r s (s.surveySample n) := by
  unfold State.surveySample
  dsimp only
  split
  · exact ⟨rfl, rfl, rfl⟩
  · split
    · split <;> exact ⟨rfl, rfl, rfl⟩
    · exact ⟨rfl, rfl, rfl⟩

theorem sameBare_surveyPublish (s : State) (r : RingId) (n : Nat) : SameBare r s (s.surveyPublish r n) := by
  unfold State.surveyPublish
  dsimp only
  split
  · exact sameBare_surveySample s r n
  · exact .refl r s

theorem sameBare_surveyTakeStart (s : State) (r : RingId) (n d : Nat) :
    SameBare r s (s.surveyTakeStart r n d) := by
  unfold State.surveyTakeStart
  dsimp only
  split
  · split <;> exact sameBare_surveySample s r _
  · exact .refl r s

theorem sameBare_surveySourceLoss (s : State) (r : RingId) : SameBare r s (s.surveySourceLoss r) := by
  unfold State.surveySourceLoss
  split <;> exact ⟨rfl, rfl, rfl⟩

theorem sameBare_cadenceStart (s : State) (r : RingId) : SameBare r s (s.cadenceStart r) := by
  unfold State.cadenceStart
  dsimp only
  split
  · exact ((sameBare_modCadence s r _).trans (sameBare_raise _ r _)).trans (sameBare_bump _ r _ 1)
  · exact sameBare_modCadence s r _

theorem sameBare_alignCheckReport (s : State) (r : RingId) : SameBare r s (s.alignCheckReport r) := by
  unfold State.alignCheckReport
  dsimp only
  split
  · split
    · exact (sameBare_modAlign s r _).trans (sameBare_raise _ r _)
    · exact sameBare_modAlign s r _
  all_goals exact .refl r s

theorem sameBare_raiseOpt (s : State) (r : RingId) (f : Option RingFlag) : SameBare r s (s.raiseOpt r f) := by
  cases f
  · exact .refl r s
  · exact sameBare_raise s r _

theorem sameBare_answerU (s : State) (r : RingId) (u : Option UReq) (status : Status) :
    SameBare r s (s.answerU u status) := by
  cases u
  · exact .refl r s
  · exact sameBare_respond s r _ _ _ _

theorem sameBare_recordU (s : State) (r : RingId) (c : Cause) (u : Option UReq) :
    SameBare r s (s.recordU r c u) := by
  cases u
  · exact .refl r s
  · exact sameBare_recordPut s r _ _ _

theorem rolesSound_revokeTake (h : RolesSound c (s.ring r)) : RolesSound c ((s.revokeTake r).ring r) := by
  unfold State.revokeTake
  split
  · exact ((sameBare_raise _ r _).trans (sameBare_bump _ r _ 1)).rolesSound (rolesSound_clearTake h)
  · exact h

/-- A revocation leaves the ring without a take. -/
theorem present_revokeTake (s : State) (r : RingId) :
    ((s.revokeTake r).ring r).take.record.present = false := by
  unfold State.revokeTake
  split
  · rw [ring_bump_self, ring_raise_self]
    unfold State.clearTake
    rw [ring_modTake_self]
    rfl
  · exact Bool.eq_false_of_not_eq_true ‹_›

/-! ## Ageing and publishing -/

theorem rolesSound_ageTimer (h : RolesSound c (s.ring r)) {timer : Option Timer}
    (paced : (s.ring r).config.kind = .message → timer = none) :
    RolesSound c ((s.modRing r (fun x => { x with ageTimer := timer })).ring r) := by
  rw [ring_modRing_self]
  refine h.of_placed rfl ⟨h.placed.head, h.placed.slot, fun message => ?_, h.placed.marks, h.placed.paced⟩
  obtain ⟨fits, -, taken⟩ := h.placed.message message
  exact ⟨fits, paced message, taken⟩

theorem rolesSound_ageOutHead (h : RolesSound c (s.ring r)) (some : (s.ring r).occ ≠ 0)
    (paced : (s.ring r).config.kind = .paced) : RolesSound c ((s.ageOutHead r).ring r) := by
  refine ((sameBare_raise _ r _).trans (sameBare_bump _ r _ 1)).rolesSound ?_
  rw [ring_modRing_self]
  exact h.of_placed rfl (placed_departN h.placed (Nat.one_le_iff_ne_zero.2 some) (.inl paced))

theorem rolesSound_armAge (n : Nat) {s : State} (h : RolesSound c (s.ring r)) :
    RolesSound c ((State.armAge n s r).ring r) := by
  induction n generalizing s with
  | zero => exact rolesSound_ageTimer h (fun _ => rfl)
  | succ n ih =>
    unfold State.armAge
    dsimp only
    split
    · exact rolesSound_ageTimer h (fun _ => rfl)
    · rename_i ages
      have ages : (s.ring r).occ ≠ 0 ∧ (s.ring r).config.kind = .paced := by
        simp only [Ring.agesOut, not_or] at ages
        refine ⟨ages.1, ?_⟩
        by_contra message
        simp [message] at ages
      split
      · exact ih (rolesSound_ageOutHead h ages.1 ages.2)
      · exact rolesSound_ageTimer h (fun message => absurd (ages.2.symm.trans message) (by simp))

theorem rolesSound_rearmAge (h : RolesSound c (s.ring r)) : RolesSound c ((s.rearmAge r).ring r) :=
  rolesSound_armAge _ h

theorem ring_writeStamp (s : State) (r q : RingId) (p : Nat) (e : Stamp) :
    (s.writeStamp r p e).ring q = s.ring q := by
  unfold State.writeStamp
  split <;> rfl

theorem ring_enterSet_self (s : State) (r : RingId) (gap : Bool) :
    (s.enterSet r gap).ring r = enteredRing (s.ring r) := by
  unfold State.enterSet
  dsimp only
  rw [ring_modRing_self, ring_writeStamp]
  rfl

theorem bareRing_dropSlip (s : State) (r : RingId) :
    bareRing ((s.dropSlip r).ring r) = bareRing (slippedRing (s.ring r)) := by
  unfold State.dropSlip slippedRing
  dsimp only
  split
  · rfl
  · rw [ring_bump_self, ring_raise_self, ring_modRing_self]
    rfl

/-! ## Take starts (R110, R127 to R129) -/

theorem rolesSound_startTake {o : Bool} (phase : c = true → (s.ring r).put.phase = .committing)
    (open_ : o = (!c && (s.ring r).put.slotOpen)) (h : Placed (s.ring r) o) (p : Nat) (replay : Bool)
    (before : p = ((s.ring r).t + (s.ring r).config.slots - 1) % (s.ring r).config.slots)
    (room : (s.ring r).config.kind = .message → (s.ring r).occ + 1 + bit o ≤ (s.ring r).config.slots) :
    RolesSound c ((s.startTake r p replay).ring r) := by
  have recorded : RolesSound c ((s.modTake r (fun t => { t with
      record := (s.ring r).takeRecordAt p (s.stampAt r p) replay s.timebase })).ring r) := by
    rw [ring_modTake_self]
    exact ⟨phase, open_ ▸ placed_take h rfl rfl rfl rfl rfl room before⟩
  unfold State.startTake
  dsimp only
  split
  · exact (sameBare_cadenceStart _ r).rolesSound recorded
  · exact ((sameBare_cadenceStart _ r).trans (sameBare_surveyTakeStart _ r _ _)).rolesSound recorded

theorem rolesSound_takeHead (h : RolesSound c (s.ring r)) (some : (s.ring r).occ ≠ 0)
    (absent : (s.ring r).take.record.present = false) : RolesSound c ((s.takeHead r).ring r) := by
  have departed := placed_departN h.placed (Nat.one_le_iff_ne_zero.2 some) (.inr absent)
  refine rolesSound_rearmAge (rolesSound_startTake
    (o := !c && (s.ring r).put.slotOpen) ?_ ?_ ?_ _ _ ?_ ?_) <;> rw [ring_modRing_self]
  · exact h.phase
  · rfl
  · exact departed
  · exact (before_next h.placed.head).symm
  · intro message
    have fits := (h.placed.message message).1
    rw [absent] at fits
    show (s.ring r).occ - 1 + 1 + _ ≤ (s.ring r).config.slots
    simp only [bit_false] at fits
    omega

theorem rolesSound_replay (h : RolesSound c (s.ring r)) (paced : (s.ring r).config.kind = .paced) :
    RolesSound c ((s.replay r).ring r) :=
  ((sameBare_raise _ r _).trans (sameBare_bump _ r _ 1)).rolesSound
    (rolesSound_startTake h.phase rfl h.placed _ _ rfl
      (fun message => absurd (paced.symm.trans message) (by simp)))

/-- The head is taken of a PACED ring only where one is published (R127, R129). -/
theorem occ_of_pacedChoice_head {x : Ring} (centre : 1 ≤ x.config.centre.toNat)
    (h : x.pacedChoice = .head) : x.occ ≠ 0 := by
  unfold Ring.pacedChoice at h
  intro none
  split at h
  · simp at h
  · split at h <;> simp [none] at h
    · omega
    · omega

end

/-! ## The Put Engine -/

section

variable {s : State} {r : RingId}

/-- The open slot is torn, or is none. -/
theorem rolesSound_torned (h : RolesSound false (s.ring r)) :
    RolesSound false ((s.modPut r PutEngine.torned).ring r) := by
  rw [ring_modPut_self]
  exact ⟨nofun, h.placed.close.congr rfl rfl rfl rfl rfl rfl rfl⟩

/-- Words go to a slot that is FILLING, which stays open. -/
theorem rolesSound_acceptWords (h : RolesSound false (s.ring r)) (filling : (s.ring r).put.phase = .filling)
    (q : PutReq) (ws : List Word) : RolesSound false ((s.acceptWords r q ws).ring r) := by
  have opened : (s.ring r).put.slotOpen = true := by
    unfold PutEngine.slotOpen
    rw [filling]
  have stays : ((s.ring r).putAccepted q ws).slotOpen = true := by
    unfold PutEngine.slotOpen Ring.putAccepted
    dsimp only
    rw [filling]
    cases (s.ring r).put.carriesU q.offset ws.length <;> rfl
  have placed : Placed (s.ring r) true := by
    have := h.placed
    rwa [opened] at this
  unfold State.acceptWords
  dsimp only
  rw [ring_handDown, ring_modRing_self]
  refine ⟨nofun, ?_⟩
  show Placed _ (true && ((s.ring r).putAccepted q ws).slotOpen)
  rw [stays]
  exact placed.congr rfl rfl rfl rfl rfl rfl rfl

/-- A header restarts the slot FILLING at the position where it stands (R56). -/
theorem rolesSound_restart (h : RolesSound false (s.ring r)) (filling : (s.ring r).put.phase = .filling)
    (q : PutReq) (header : Word) (ws : List Word) :
    RolesSound false ((((s.restartTear r q.requester).takeHeader r header false).acceptWords r q ws).ring r) := by
  have placed : Placed (s.ring r) true := by
    have := h.placed
    unfold PutEngine.slotOpen at this
    rwa [filling] at this
  refine rolesSound_acceptWords ?_ ?_ q ws
  · unfold State.takeHeader State.restartTear
    simp only [Bool.false_eq_true, if_false, ring_modRing_self, ring_recordPut_self, ring_modPut_self]
    exact ⟨nofun, ⟨placed.head, fun _ => rfl, placed.message, placed.marks, placed.paced⟩⟩
  · unfold State.takeHeader
    simp only [Bool.false_eq_true, if_false, ring_modRing_self]
    rfl

theorem kept_collide (s : State) (r : RingId) : Kept (s.ring r) ((s.collide r).ring r) :=
  (inner_collide s r).ring

/-- What the revocation of a take in the header's way leaves of the ring (R133). -/
theorem ring_collide_self (s : State) (r : RingId) : ∃ take events,
    (s.collide r).ring r = { s.ring r with take := take, events := events } ∧
      ((s.ring r).config.kind = .paced → take.record.present = true →
        take.record.position ≠ (s.ring r).openPosition) ∧
      (take.record.present = true → take.record = (s.ring r).take.record) ∧
      ((s.ring r).config.kind = .message → take = (s.ring r).take) := by
  unfold State.collide
  split
  · rename_i collides
    have paced : (s.ring r).config.kind = .paced ∧ (s.ring r).take.record.present = true := by
      simp only [Ring.collides, Bool.and_eq_true, decide_eq_true_eq] at collides
      exact collides.1
    unfold State.revokeTake
    rw [if_pos paced.2]
    refine ⟨_, _, by rw [ring_bump_self, ring_raise_self]; unfold State.clearTake; rw [ring_modTake_self],
      fun _ present => absurd present Bool.false_ne_true,
      fun present => absurd present Bool.false_ne_true, fun message => absurd (paced.1.symm.trans message) (by simp)⟩
  · rename_i apart
    refine ⟨(s.ring r).take, (s.ring r).events, rfl, fun paced present same => apart ?_, fun _ => rfl,
      fun _ => rfl⟩
    simp [Ring.collides, paced, present, same]

/-- A header opens a slot in the room that it has found (R57, R58, R133). -/
theorem rolesSound_fresh (h : RolesSound false (s.ring r)) (closed : (s.ring r).put.slotOpen = false)
    (room : (s.ring r).hasRoom = true) (q : PutReq) (header : Word) (ws : List Word) :
    RolesSound false (((s.takeHeader r header true).acceptWords r q ws).ring r) := by
  have placed : Placed (s.ring r) false := by
    have := h.placed
    rwa [closed] at this
  obtain ⟨take, events, ring, apart, kept, message⟩ := ring_collide_self s r
  have taken : (s.takeHeader r header true).ring r =
      { s.ring r with
        take := take
        events := events
        put := ({ s.ring r with take := take, events := events } : Ring).putOpened header } := by
    unfold State.takeHeader
    simp only [if_true, ring_modRing_self, ring]
  refine rolesSound_acceptWords ?_ ?_ q ws <;> rw [taken]
  · refine ⟨nofun, placed_open (x := { s.ring r with take := take, events := events }) ?_ rfl rfl rfl rfl rfl
      rfl rfl ?_ apart⟩
    · by_cases present : take.record.present = true
      · exact placed.congr rfl rfl rfl rfl rfl (congrArg _ (kept present)) (congrArg _ (kept present))
      · exact placed.noTake rfl rfl rfl rfl rfl (Bool.eq_false_of_not_eq_true present)
    · unfold Ring.hasRoom at room ⊢
      dsimp only
      split
      · rfl
      · rename_i kind
        rw [kind] at room
        rw [message kind]
        exact room
  · rfl

theorem rolesSound_judgeNoRoom (h : RolesSound false (s.ring r)) (q : PutReq) :
    RolesSound false ((s.judgeNoRoom r q).1.ring r) := by
  unfold State.judgeNoRoom
  dsimp only
  split
  · exact (sameBare_refusePut s r q _).rolesSound h
  · split
    · exact (sameBare_refusePut s r q _).rolesSound h
    · exact h

theorem rolesSound_judgeHeaderPassed (h : RolesSound false (s.ring r))
    (idle : (s.ring r).put.phase ≠ .committing) (q : PutReq) (ws : List Word) :
    RolesSound false ((s.judgeHeaderPassed r q ws).1.ring r) := by
  unfold State.judgeHeaderPassed
  dsimp only
  split
  · rename_i filling
    split
    · exact h
    · exact rolesSound_restart h filling q _ ws
  · rename_i unfilled
    split
    · exact rolesSound_judgeNoRoom h q
    · rename_i room
      split
      · exact h
      · refine rolesSound_fresh h ?_ (by simpa using room) q _ ws
        unfold PutEngine.slotOpen
        cases phase : (s.ring r).put.phase with
        | none => rfl
        | filling => exact absurd phase unfilled
        | committing => exact absurd phase idle

theorem rolesSound_judgeBurst (h : RolesSound false (s.ring r)) (idle : (s.ring r).put.phase ≠ .committing)
    (q : PutReq) (ws : List Word) : RolesSound false ((s.judgeBurst r q ws).1.ring r) := by
  unfold State.judgeBurst
  dsimp only
  split
  · split
    · exact (sameBare_refusePut s r q _).rolesSound h
    · exact rolesSound_judgeHeaderPassed h idle q ws
  · split
    · exact (sameBare_refusePut s r q _).rolesSound h
    · rename_i passed
      refine rolesSound_acceptWords h ?_ q ws
      unfold PutEngine.wordsCause at passed
      exact not_not.1 (of_ite_ne passed (by simp)).1

theorem rolesSound_judgeAbandon (h : RolesSound false (s.ring r)) (q : PutReq) :
    RolesSound false ((s.judgeAbandon r q).ring r) := by
  unfold State.judgeAbandon
  dsimp only
  rw [ring_respond]
  split
  · exact (sameBare_recordPut _ r _ _ _).rolesSound (rolesSound_torned h)
  · exact h

theorem rolesSound_judgePut (h : RolesSound false (s.ring r)) (idle : (s.ring r).put.phase ≠ .committing)
    (q : PutReq) : RolesSound false ((s.judgePut r q).1.ring r) := by
  unfold State.judgePut
  split
  · exact rolesSound_judgeBurst h idle q _
  · exact rolesSound_judgeAbandon h q

theorem rolesSound_putLoop (n : Nat) {s : State} (h : RolesSound false (s.ring r)) :
    RolesSound false ((State.putLoop n s r).ring r) := by
  induction n generalizing s with
  | zero => exact h
  | succ n ih =>
    unfold State.putLoop
    dsimp only
    split
    · exact h
    · rename_i q _ _
      split
      · exact h
      · rename_i idle
        have judged := rolesSound_judgePut h idle q
        split
        · rename_i stays
          rw [stays] at judged
          exact rolesSound_modPut judged _ rfl rfl
        · rename_i leaves
          rw [leaves] at judged
          exact ih (rolesSound_modPut judged _ rfl rfl)

/-- While a slot is COMMITTING the queue is not judged (R52). -/
theorem putLoop_committing {s : State} (committing : (s.ring r).put.phase = .committing) (n : Nat) :
    State.putLoop n s r = s := by
  cases n with
  | zero => rfl
  | succ n =>
    unfold State.putLoop
    dsimp only
    split
    · rfl
    · rw [if_pos committing]

theorem rolesSound_judgePutQueue {c : Bool} (h : RolesSound c (s.ring r)) :
    RolesSound c ((s.judgePutQueue r).ring r) := by
  have cleared := rolesSound_modPut h (fun p => { p with head := .clear }) rfl rfl
  unfold State.judgePutQueue
  cases c with
  | false => exact rolesSound_putLoop _ cleared
  | true =>
    rw [putLoop_committing (cleared.phase rfl)]
    exact cleared

theorem rolesSound_roomAppears {c : Bool} (h : RolesSound c (s.ring r)) :
    RolesSound c ((s.roomAppears r).ring r) := by
  unfold State.roomAppears
  dsimp only
  split
  · exact rolesSound_judgePutQueue h
  · exact h

theorem rolesSound_deliverPut (h : RolesSound false (s.ring r)) (q : PutReq) :
    RolesSound false ((s.deliverPut r q).ring r) := by
  unfold State.deliverPut
  dsimp only
  split
  · exact (sameBare_refusePut s r q _).rolesSound h
  · have held := rolesSound_modPut h (fun p => { p with hold := p.hold ++ [q] }) rfl rfl
    split
    · exact rolesSound_judgePutQueue held
    · exact held

theorem rolesSound_refuseParked (h : RolesSound false (s.ring r)) (c : Cause) :
    RolesSound false ((s.refuseParked r c).ring r) := by
  unfold State.refuseParked
  split
  · exact h
  · exact rolesSound_judgePutQueue
      (rolesSound_modPut ((sameBare_refusePut s r _ c).rolesSound h) _ rfl rfl)

end

/-! ## The Take Engine -/

section

variable {c : Bool} {s : State} {r : RingId}

theorem rolesSound_releaseTake (h : RolesSound c (s.ring r)) : RolesSound c ((s.releaseTake r).ring r) :=
  rolesSound_roomAppears (rolesSound_clearTake h)

theorem rolesSound_handRead (h : RolesSound c (s.ring r)) (q : TakeReq) (k n : Nat) (u : Bool) :
    RolesSound c ((s.handRead r q k n u).ring r) := by
  unfold State.handRead
  dsimp only
  rw [ring_handDown]
  exact rolesSound_modTake h _ rfl rfl

theorem rolesSound_serveRead (h : RolesSound c (s.ring r)) (q : TakeReq) :
    RolesSound c ((s.serveRead r q).ring r) := by
  unfold State.serveRead
  dsimp only
  split
  · exact (sameBare_respond s r _ _ _ _).rolesSound h
  · exact rolesSound_handRead h q _ _ _

theorem rolesSound_judgePresent (h : RolesSound c (s.ring r)) (q : TakeReq) :
    RolesSound c ((s.judgePresent r q).1.ring r) := by
  unfold State.judgePresent State.judgeChecked
  dsimp only
  split
  · split
    · exact h
    · split
      · exact rolesSound_serveRead (rolesSound_modTake h _ rfl rfl) q
      · split
        · exact rolesSound_serveRead h q
        · exact (sameBare_refuseTake s r q _).rolesSound h
  · exact rolesSound_serveRead h q

theorem rolesSound_setPaced (h : RolesSound c (s.ring r)) (p : PacedState) :
    RolesSound c ((s.setPaced r p).ring r) := by
  unfold State.setPaced
  rw [ring_modRing_self]
  exact h.same ⟨rfl, rfl, rfl, rfl, rfl, rfl, rfl, rfl⟩

theorem ring_setPaced_self (s : State) (r : RingId) (p : PacedState) :
    (s.setPaced r p).ring r = { s.ring r with paced := p } := ring_modRing_self s r _

theorem rolesSound_judgePaced (h : RolesSound c (s.ring r)) (paced : (s.ring r).config.kind = .paced)
    (absent : (s.ring r).take.record.present = false) (q : TakeReq) :
    RolesSound c ((s.judgePaced r q).1.ring r) := by
  unfold State.judgePaced
  split
  · rename_i head
    have some := occ_of_pacedChoice_head (h.placed.marks paced).2.1 head
    refine rolesSound_serveRead (rolesSound_takeHead (rolesSound_setPaced h _) ?_ ?_) q <;>
      rw [ring_setPaced_self]
    · exact some
    · exact absent
  · refine rolesSound_serveRead (rolesSound_replay (rolesSound_setPaced h _) ?_) q
    rw [ring_setPaced_self]
    exact paced
  · exact (sameBare_respond s r _ _ _ _).rolesSound h

theorem rolesSound_judgeMessage (h : RolesSound c (s.ring r))
    (absent : (s.ring r).take.record.present = false) (q : TakeReq) :
    RolesSound c ((s.judgeMessage r q).1.ring r) := by
  unfold State.judgeMessage
  dsimp only
  split
  · exact rolesSound_serveRead (rolesSound_takeHead h ‹_› absent) q
  · split
    · exact h
    · exact (sameBare_respond s r _ _ _ _).rolesSound h

theorem rolesSound_judgeTake (h : RolesSound c (s.ring r)) (q : TakeReq) :
    RolesSound c ((s.judgeTake r q).1.ring r) := by
  unfold State.judgeTake State.judgeRelease State.judgeAbsent
  split
  · dsimp only
    split
    · exact rolesSound_releaseTake (rolesSound_handRead h q _ _ _)
    · exact (sameBare_respond s r _ _ _ _).rolesSound h
  · split
    · exact rolesSound_judgePresent h q
    · rename_i absent
      have absent := Bool.eq_false_of_not_eq_true absent
      split
      · exact (sameBare_respond s r _ _ _ _).rolesSound h
      · split
        · exact rolesSound_judgeMessage h absent q
        · rename_i paced
          exact rolesSound_judgePaced h paced absent q

theorem rolesSound_takeLoop (n : Nat) {s : State} (h : RolesSound c (s.ring r)) :
    RolesSound c ((State.takeLoop n s r).ring r) := by
  induction n generalizing s with
  | zero => exact h
  | succ n ih =>
    unfold State.takeLoop
    split
    · exact h
    · rename_i q _ _
      have judged := rolesSound_judgeTake h q
      split
      · rename_i stays
        rw [stays] at judged
        exact rolesSound_modTake judged _ rfl rfl
      · rename_i leaves
        rw [leaves] at judged
        exact ih (rolesSound_modTake judged _ rfl rfl)

theorem rolesSound_judgeTakeQueue (h : RolesSound c (s.ring r)) :
    RolesSound c ((s.judgeTakeQueue r).ring r) :=
  rolesSound_takeLoop _ (rolesSound_modTake h _ rfl rfl)

theorem rolesSound_deliverTake (h : RolesSound c (s.ring r)) (q : TakeReq) :
    RolesSound c ((s.deliverTake r q).ring r) := by
  unfold State.deliverTake
  dsimp only
  split
  · exact (sameBare_refuseTake s r q _).rolesSound h
  · have held := rolesSound_modTake h (fun t => { t with hold := t.hold ++ [q] }) rfl rfl
    split
    · exact rolesSound_judgeTakeQueue held
    · exact held

theorem rolesSound_startParkedTake (h : RolesSound c (s.ring r)) :
    RolesSound c ((s.startParkedTake r).ring r) := by
  unfold State.startParkedTake
  dsimp only
  split
  · exact rolesSound_judgeTakeQueue h
  · exact h

theorem rolesSound_takeOk (h : RolesSound c (s.ring r)) (e : ReadEntry) (data : List Word) :
    RolesSound c ((s.takeOk r e data).ring r) := by
  have answered := (sameBare_respond s r e.requester e.tag .ok ((s.ring r).readData e data)).rolesSound h
  unfold State.takeOk
  dsimp only
  split
  · exact answered
  · split
    · split
      · unfold State.answerTrailer
        dsimp only
        refine rolesSound_releaseTake ?_
        split
        · exact answered
        · exact ((sameBare_recordTake s r _ _ _).trans (sameBare_respond _ r _ _ _ _)).rolesSound h
      · unfold State.answerChecked
        dsimp only
        rw [ring_respond]
        exact rolesSound_modTake h _ rfl rfl
    · split
      · exact rolesSound_releaseTake answered
      · exact answered

theorem rolesSound_takeOutcome (h : RolesSound c (s.ring r)) (q : Requester) (u : UTag) (status : Status)
    (data : List Word) : RolesSound c ((s.takeOutcome r q u status data).ring r) := by
  have waiting : ∀ t : State, RolesSound c (t.ring r) → RolesSound c ((t.judgeTakeWaiting r).ring r) := by
    intro t ht
    unfold State.judgeTakeWaiting
    dsimp only
    split
    · exact rolesSound_judgeTakeQueue ht
    · exact ht
  unfold State.takeOutcome
  split
  · exact h
  · have removed := rolesSound_modTake h
      (fun t => { t with reads := t.reads.filter (fun e => !e.isPair q u) }) rfl rfl
    dsimp only
    cases status
    · refine waiting _ (rolesSound_takeOk ?_ _ _)
      exact removed
    · exact waiting _ (((sameBare_recordTake _ r _ _ _).trans
        (sameBare_respond _ r _ _ _ _)).rolesSound removed)

theorem rolesSound_fillParked (h : RolesSound c (s.ring r)) : RolesSound c ((s.fillParked r).ring r) := by
  unfold State.fillParked
  split
  · exact h
  · exact rolesSound_judgeTakeQueue
      (rolesSound_modTake ((sameBare_respond s r _ _ _ _).rolesSound h) _ rfl rfl)

end

/-! ## The commit completion (R41, R63) -/

section

variable {s : State} {r : RingId}

/-- A publish moves the open slot to the published positions. -/
theorem rolesSound_publish (h : RolesSound false (s.ring r))
    (committing : (s.ring r).put.phase = .committing) (gap : Bool) :
    RolesSound true ((s.publish r gap).ring r) := by
  have placed : Placed (s.ring r) true := by
    have := h.placed
    unfold PutEngine.slotOpen at this
    rwa [committing] at this
  have phase : (slippedRing (enteredRing (s.ring r))).put.phase = .committing := by
    unfold slippedRing
    split <;> exact committing
  have slipped : RolesSound true (((s.enterSet r gap).dropSlip r).ring r) := by
    refine RolesSound.bare ⟨fun _ => phase, placed_publish placed⟩ ?_
    rw [bareRing_dropSlip, ring_enterSet_self]
  have aged : ∀ headChanged, RolesSound true
      ((((s.enterSet r gap).dropSlip r).publishAge r headChanged).ring r) := by
    intro headChanged
    unfold State.publishAge
    split
    · exact rolesSound_rearmAge slipped
    · exact slipped
  exact (sameBare_bump _ r _ 1).rolesSound
    (rolesSound_startParkedTake ((sameBare_surveyPublish _ r _).rolesSound (aged _)))

/-- After the verdicts the slot counts as open no more. -/
theorem placed_verdicts (h : RolesSound false (s.ring r)) (committing : (s.ring r).put.phase = .committing)
    (u : Option UReq) : Placed ((s.verdicts r u).ring r) false := by
  have kept : ∀ t : State, SameBare r s t → Placed (t.ring r) false := fun t same =>
    (same.rolesSound h).placed.close
  unfold State.verdicts State.checkVerdict State.alignVerdict
  dsimp only
  split
  · exact kept _ (sameBare_answerU s r u _)
  · split
    · exact kept _ (((sameBare_recordU s r _ u).trans (sameBare_alignCheckReport _ r)).trans
        (sameBare_answerU _ r u _))
    · split
      · exact (((((sameBare_modAlign _ r _).trans (sameBare_raiseOpt _ r _)).trans
          (sameBare_answerU _ r u _))).rolesSound (rolesSound_publish h committing false)).placed
      · exact (((((((sameBare_raise _ r _).trans (sameBare_bump _ r _ 1)).trans
          (sameBare_modAlign _ r _)).trans (sameBare_raiseOpt _ r _)).trans
          (sameBare_answerU _ r u _))).rolesSound (rolesSound_publish h committing true)).placed
      · exact kept _ ((((sameBare_bump s r _ 1).trans (sameBare_modAlign _ r _)).trans
          (sameBare_raiseOpt _ r _)).trans (sameBare_answerU _ r u _))

theorem rolesSound_commitCompletion (h : RolesSound false (s.ring r))
    (committing : (s.ring r).put.phase = .committing) :
    RolesSound false ((s.commitCompletion r).ring r) := by
  have closed : ∀ t : State, Placed (t.ring r) false →
      RolesSound false (((t.modPut r (fun p => { p with phase := .none, uRequest := .none })).judgePutQueue
        r).ring r) := by
    intro t placed
    refine rolesSound_judgePutQueue ?_
    rw [ring_modPut_self]
    exact ⟨nofun, placed.congr rfl rfl rfl rfl rfl rfl rfl⟩
  unfold State.commitCompletion
  dsimp only
  refine closed _ ?_
  split
  · exact (((sameBare_recordU s r _ _).trans (sameBare_answerU _ r _ _)).rolesSound h).placed.close
  · exact placed_verdicts h committing _

theorem rolesSound_afterOutcome (h : RolesSound false (s.ring r)) (current : Bool) :
    RolesSound false ((s.afterOutcome r current).ring r) := by
  unfold State.afterOutcome
  dsimp only
  split
  · split
    · rename_i complete
      simp only [Bool.and_eq_true, decide_eq_true_eq] at complete
      exact rolesSound_commitCompletion h complete.1
    · exact h
  · split
    · exact rolesSound_judgePutQueue h
    · exact h

theorem rolesSound_putOutcome (h : RolesSound false (s.ring r)) (q : Requester) (u : UTag) (g : BitVec 8)
    (status : Status) : RolesSound false ((s.putOutcome r q u g status).ring r) := by
  unfold State.putOutcome
  dsimp only
  split
  · exact h
  · have counted : ∀ w, RolesSound false ((s.modPut r (fun p =>
        { p.counted g status with writes := w })).ring r) := fun w =>
      rolesSound_modPut h _ (by unfold PutEngine.counted; split <;> rfl)
        (by unfold PutEngine.counted; split <;> rfl)
    refine rolesSound_afterOutcome ?_ _
    split <;> split
    · exact (sameBare_recordPut _ r _ _ _).rolesSound (counted _)
    · exact counted _
    · exact ((sameBare_recordPut _ r _ _ _).trans (sameBare_respond _ r _ _ _ _)).rolesSound (counted _)
    · exact (sameBare_respond _ r _ _ _ _).rolesSound (counted _)

end

end Sys2Proof.Laws

/-! PROOFS. The positions of every ring stay apart (R40, R43, R57, R125, R126, R133): what the commands and
the expiries do to them; with O56. -/

namespace Sys2Proof.Laws

open Sys2Proof.Machine

/-! ## The places of an active ring and of an IDLE one -/

/-- What the invariant says of ring `r`. It unfolds only where a proof asks for it: whether the ring is IDLE
is not to be evaluated of an event's result. -/
@[irreducible] def positionsAt (s : State) (r : RingId) : Prop :=
  if (s.ring r).state = .idle then
    (s.ring r).occ = 0 ∧ (s.ring r).put.head = .clear ∧ (s.ring r).take.head = .clear ∧
      s.downstreamClear r = true
  else (s.ring r).positionsSound

theorem positionsSound_iff_at : PositionsSound = fun s => ∀ r, positionsAt s r := by
  unfold PositionsSound positionsAt
  rfl

section

variable {s t : State} {r : RingId}

theorem positionsAt_of_active (ne : (s.ring r).state ≠ .idle) (h : RolesSound false (s.ring r)) :
    positionsAt s r := by
  unfold positionsAt
  rw [if_neg ne]
  exact (rolesSound_iff _).1 h

theorem rolesSound_of_active (h : positionsAt s r) (ne : (s.ring r).state ≠ .idle) :
    RolesSound false (s.ring r) := by
  unfold positionsAt at h
  rw [if_neg ne] at h
  exact (rolesSound_iff _).2 h

theorem heads_of_idle (h : positionsAt s r) (idle : (s.ring r).state = .idle) :
    (s.ring r).put.head = .clear ∧ (s.ring r).take.head = .clear ∧ s.downstreamClear r = true := by
  unfold positionsAt at h
  rw [if_pos idle] at h
  exact h.2

theorem ne_idle_of_busy {i : DTag} (h : positionsAt s r) (busy : s.tags[i].busyOf r = true) :
    (s.ring r).state ≠ .idle := fun idle => by
  have clear := ((downstreamClear_iff s r).1 (heads_of_idle h idle).2.2).1 i
  rw [busy] at clear
  exact absurd clear (by simp)

theorem SameBare.positionsAt (same : SameBare r s t) (h : positionsAt s r) : positionsAt t r := by
  have state : (t.ring r).state = (s.ring r).state := congrArg (fun x => x.state) same.ring
  by_cases idle : (s.ring r).state = .idle
  · unfold Laws.positionsAt at h ⊢
    rw [if_pos idle] at h
    rw [if_pos (state.trans idle), same.clear]
    exact ⟨(congrArg (fun x => x.occ) same.ring).trans h.1,
      (congrArg (fun x => x.put.head) same.ring).trans h.2.1,
      (congrArg (fun x => x.take.head) same.ring).trans h.2.2.1, h.2.2.2⟩
  · exact positionsAt_of_active (by rwa [state])
      ((rolesSound_of_active h idle).bare same.ring)

/-- A ring that meets its condition has nothing left with the Memory Port. -/
theorem noDownstream_of_idleCondition (h : s.idleCondition r = true) : s.noDownstream r := by
  rcases (idleCondition_iff s r).1 h with ⟨-, drained⟩ | ⟨-, clear⟩
  · unfold State.drained at drained
    tauto
  · exact clear

/-- The Ring Table's test: the ring goes on, or it has entered IDLE with nothing of it left. -/
theorem positionsAt_settle (h : positionsAt s r) : positionsAt (s.settle r) r := by
  unfold State.settle
  split
  · rename_i ends
    have clear : (s.enterIdle r).downstreamClear r = true := by
      refine (downstreamClear_congr ?_ ?_ r).trans
        ((downstreamClear_iff s r).2 (noDownstream_of_idleCondition ends)) <;>
        · unfold State.enterIdle State.surveySourceLoss
          split <;> rfl
    unfold positionsAt
    rw [ring_enterIdle_self, if_pos (show (s.ring r).atIdle.state = .idle from rfl)]
    exact ⟨rfl, rfl, rfl, clear⟩
  · exact h

/-- An event of an active ring that keeps its roles sound, before the Ring Table's test. -/
theorem positionsAt_inner (inner : Inner r s t) (ne : (s.ring r).state ≠ .idle)
    (sound : RolesSound false (t.ring r)) : positionsAt t r :=
  positionsAt_of_active (inner.ring.state ▸ ne) sound

theorem ne_idle_of_active {x : Ring} (h : x.state.active = true) : x.state ≠ .idle := by
  intro idle
  simp [idle, RingState.active] at h

/-! ## Requests -/

theorem positionsAt_putRequest (h : positionsAt s r) (active : (s.ring r).state.active = true)
    (q : UpRequest) (k : Nat) : positionsAt (s.putRequest r q k) r := by
  have ne := ne_idle_of_active active
  unfold State.putRequest State.admitPut
  split
  · exact ((sameBare_recordPut s r _ _ _).trans (sameBare_respond _ r _ _ _ _)).positionsAt h
  · dsimp only
    split
    · exact (sameBare_respond s r _ _ _ _).positionsAt h
    · exact positionsAt_settle (positionsAt_inner (inner_deliverPut s r _) ne
        (rolesSound_deliverPut (rolesSound_of_active h ne) _))

theorem positionsAt_takeRequest (h : positionsAt s r) (active : (s.ring r).state.active = true)
    (q : UpRequest) (k : Nat) : positionsAt (s.takeRequest r q k) r := by
  have ne := ne_idle_of_active active
  unfold State.takeRequest State.admitTake
  split
  · exact ((sameBare_recordTake s r _ _ _).trans (sameBare_respond _ r _ _ _ _)).positionsAt h
  · dsimp only
    split
    · exact (sameBare_respond s r _ _ _ _).positionsAt h
    · split
      · exact (sameBare_respond s r _ _ _ _).positionsAt h
      · exact positionsAt_settle (positionsAt_inner (inner_deliverTake s r _) ne
          (rolesSound_deliverTake (rolesSound_of_active h ne) _))

/-! ## Outcomes -/

theorem positionsAt_putOutcome {i : DTag} (h : positionsAt s r) (busy : s.tags[i].busyOf r = true)
    (e : TagEntry) (q : Requester) (u : UTag) (g : BitVec 8) (status : Status) :
    positionsAt (((s.setTag i e).putOutcome r q u g status).settle r) r := by
  have active : (s.ring r).state ≠ .idle := ne_idle_of_busy h busy
  have ne : ((s.setTag i e).ring r).state ≠ .idle := active
  have sound : RolesSound false (s.ring r) := rolesSound_of_active h active
  exact positionsAt_settle (positionsAt_inner (inner_putOutcome _ r q u g status) ne
    (rolesSound_putOutcome (s := s.setTag i e) sound q u g status))

theorem positionsAt_takeOutcome {i : DTag} (h : positionsAt s r) (busy : s.tags[i].busyOf r = true)
    (e : TagEntry) (q : Requester) (u : UTag) (status : Status) (data : List Word) :
    positionsAt (((s.setTag i e).takeOutcome r q u status data).settle r) r := by
  have active : (s.ring r).state ≠ .idle := ne_idle_of_busy h busy
  have ne : ((s.setTag i e).ring r).state ≠ .idle := active
  have sound : RolesSound false (s.ring r) := rolesSound_of_active h active
  exact positionsAt_settle (positionsAt_inner (inner_takeOutcome _ r q u status data) ne
    (rolesSound_takeOutcome (s := s.setTag i e) sound q u status data))

/-! ## Expiries -/

theorem positionsAt_putParkExpiry (h : positionsAt s r) : positionsAt (s.putParkExpiry r) r := by
  unfold State.putParkExpiry
  split
  · rename_i due
    have ne : (s.ring r).state ≠ .idle := fun idle => by
      rw [(heads_of_idle h idle).1] at due
      exact absurd due (by simp [HeadHold.timer, timerDue])
    exact positionsAt_settle (positionsAt_inner (inner_refuseParked s r _) ne
      (rolesSound_refuseParked (rolesSound_of_active h ne) _))
  · exact h

theorem positionsAt_takeParkExpiry (h : positionsAt s r) : positionsAt (s.takeParkExpiry r) r := by
  unfold State.takeParkExpiry
  split
  · rename_i due
    have ne : (s.ring r).state ≠ .idle := fun idle => by
      rw [(heads_of_idle h idle).2.1] at due
      exact absurd due (by simp [HeadHold.timer, timerDue])
    exact positionsAt_settle (positionsAt_inner (inner_fillParked s r) ne
      (rolesSound_fillParked (rolesSound_of_active h ne)))
  · exact h

/-- An age-expiry timer runs on a PACED ring only. -/
theorem paced_of_ageTimer {c : Bool} {x : Ring} (h : RolesSound c x) {now : Time}
    (due : timerDue now x.ageTimer = true) : x.config.kind = .paced := by
  cases kind : x.config.kind with
  | paced => rfl
  | message =>
    rw [(h.placed.message kind).2.1] at due
    exact absurd due (by simp [timerDue])

theorem positionsAt_ageExpiry (h : positionsAt s r) : positionsAt (s.ageExpiry r) r := by
  unfold State.ageExpiry
  dsimp only
  split
  · rename_i due
    simp only [Bool.and_eq_true, decide_eq_true_eq] at due
    obtain ⟨⟨serving, timer⟩, some⟩ := due
    have ne := ne_idle_of_serving serving
    have sound := rolesSound_of_active h ne
    exact positionsAt_settle (positionsAt_inner ((inner_ageOutHead s r).trans (inner_rearmAge _ r)) ne
      (rolesSound_rearmAge (rolesSound_ageOutHead sound some (paced_of_ageTimer sound timer))))
  · exact h

theorem positionsAt_refuseAbsent (h : positionsAt s r) (ne : (s.ring r).state ≠ .idle) :
    positionsAt (s.refuseAbsent r) r := by
  refine positionsAt_inner (inner_refuseAbsent s r) ne ?_
  unfold State.refuseAbsent
  dsimp only
  split
  · exact rolesSound_refuseParked (rolesSound_of_active h ne) _
  · exact rolesSound_of_active h ne

theorem positionsAt_lateExpiry (h : positionsAt s r) : positionsAt (s.lateExpiry r) r := by
  unfold State.lateExpiry
  dsimp only
  split
  · rename_i due
    simp only [Bool.and_eq_true] at due
    have late := (sameBare_cadenceLate s r).positionsAt h
    split
    · refine positionsAt_settle (positionsAt_refuseAbsent late ?_)
      rw [(inner_cadenceLate s r).ring.state]
      exact ne_idle_of_serving due.1
    · exact late
  · exact h

/-! ## Commands -/

/-- An accepted START opens the ring empty (R29, R31). -/
theorem positionsAt_startRing (accepted : s.startResult r = .accepted) : positionsAt (s.startRing r) r := by
  have checked := startAccepted_of_result accepted
  have two := two_le_slots_of_badSlotCount checked.slotCount
  refine positionsAt_of_active ?_ ⟨nofun, ?_⟩ <;> rw [ring_startRing_self]
  · exact nofun
  · refine ⟨?_, nofun, fun _ => ⟨?_, rfl, nofun⟩, fun kind => ?_, fun _ => ⟨Nat.zero_le _, nofun⟩⟩
    · show 0 < (s.ring r).config.slots
      omega
    · show 0 + bit false + bit false ≤ (s.ring r).config.slots
      simp
    · have marks := checked.marks
      have kind : (s.ring r).config.kind = .paced := kind
      simp only [RingConfig.badMarks, kind, Bool.not_eq_false', Bool.and_eq_true, decide_eq_true_eq] at marks
      exact ⟨marks.1.1.2, marks.1.2, marks.2⟩

theorem rolesSound_setState {c : Bool} (h : RolesSound c (s.ring r)) (st : RingState) :
    RolesSound c ((s.modRing r (fun x => { x with state := st })).ring r) := by
  rw [ring_modRing_self]
  exact h.same ⟨rfl, rfl, rfl, rfl, rfl, rfl, rfl, rfl⟩

theorem positionsAt_stopRing (h : positionsAt s r) (running : (s.ring r).state = .running) :
    positionsAt (s.stopRing r) r := by
  have sound := rolesSound_setState
    (rolesSound_of_active h (by rw [running]; simp)) .draining
  unfold State.stopRing
  have ne : ((s.modRing r (fun x => { x with state := .draining })).ring r).state ≠ .idle := by
    rw [ring_modRing_self]
    simp
  generalize s.modRing r (fun x => { x with state := .draining }) = t at sound ne ⊢
  refine positionsAt_settle ?_
  unfold State.refuseParkedDraining
  split
  · exact positionsAt_inner (inner_refuseParked t r _) ne (rolesSound_refuseParked sound _)
  · exact positionsAt_of_active ne sound

/-- What a revocation can change of the ring: the take record goes. -/
theorem ring_revokeTake (s : State) (r : RingId) : ∃ take events,
    (s.revokeTake r).ring r = { s.ring r with take := take, events := events } ∧
      take.record.present = false := by
  unfold State.revokeTake
  split
  · refine ⟨_, _, by rw [ring_bump_self, ring_raise_self]; unfold State.clearTake; rw [ring_modTake_self], rfl⟩
  · exact ⟨_, _, rfl, Bool.eq_false_of_not_eq_true ‹_›⟩

/-- All published slots depart, the take goes and the age-expiry timer stops (R34, R37). -/
theorem RolesSound.emptied {c : Bool} {x y : Ring} (h : RolesSound c x) (config : y.config = x.config)
    (t : y.t = (x.t + x.occ) % x.config.slots) (occ : y.occ = 0) (timer : y.ageTimer = .none)
    (put : y.put = x.put) (absent : y.take.record.present = false) : RolesSound c y := by
  refine h.of_placed (by rw [put]) ⟨?_, fun opened => ?_, fun message => ⟨?_, timer, ?_⟩, ?_, fun _ => ⟨?_, ?_⟩⟩
  · rw [config, t]
    exact Nat.mod_lt _ (Nat.zero_lt_of_lt h.placed.head)
  · rw [put, config, t, occ, h.placed.slot opened, Nat.add_zero, Nat.mod_mod]
  · have fits := (h.placed.message (config ▸ message)).1
    rw [occ, absent, config, bit_false]
    omega
  · exact fun present => absurd (absent.symm.trans present) (by simp)
  · rw [config]
    exact h.placed.marks
  · rw [occ]
    exact Nat.zero_le _
  · exact fun present => absurd (absent.symm.trans present) (by simp)

theorem rolesSound_abortQueues (h : RolesSound false (s.ring r)) :
    RolesSound false (((s.abortPutQueue r).abortTakeQueue r).ring r) := by
  have puts : RolesSound false ((s.abortPutQueue r).ring r) := by
    unfold State.abortPutQueue
    refine rolesSound_modPut ?_ _ rfl rfl
    exact List.foldlRecOn (motive := fun t => RolesSound false (t.ring r)) _ _ h
      (fun t kept q _ => (sameBare_refusePut t r q _).rolesSound kept)
  generalize s.abortPutQueue r = t at puts
  unfold State.abortTakeQueue
  refine rolesSound_modTake ?_ _ rfl rfl
  exact List.foldlRecOn (motive := fun t => RolesSound false (t.ring r)) _ _ puts
    (fun t kept q _ => (sameBare_refuseTake t r q _).rolesSound kept)

theorem rolesSound_abortTear (h : RolesSound false (s.ring r)) :
    RolesSound false ((s.modPut r PutEngine.abortTear).ring r) := by
  have tear := rolesSound_torned h
  rw [ring_modPut_self] at tear ⊢
  unfold PutEngine.abortTear
  split
  · exact tear
  all_goals exact h

theorem rolesSound_abortEffects (h : RolesSound false (s.ring r)) :
    RolesSound false ((s.abortEffects r).ring r) := by
  unfold State.abortEffects
  dsimp only
  have torn := rolesSound_abortTear (rolesSound_abortQueues (rolesSound_setState h .aborting))
  generalize (((s.modRing r (fun x => { x with state := .aborting })).abortPutQueue r).abortTakeQueue
    r).modPut r PutEngine.abortTear = t at torn ⊢
  obtain ⟨take, events, ring, absent⟩ := ring_revokeTake t r
  rw [ring_surveySourceLoss, ring_modRing_self, ring]
  exact torn.emptied rfl rfl (Nat.sub_self _) rfl rfl absent

theorem state_abortEffects (s : State) (r : RingId) : ((s.abortEffects r).ring r).state = .aborting := by
  have aborting : ((s.modRing r (fun x => { x with state := .aborting })).ring r).state = .aborting := by
    rw [ring_modRing_self]
  unfold State.abortEffects
  dsimp only
  generalize s.modRing r (fun x => { x with state := .aborting }) = t at aborting ⊢
  rw [ring_surveySourceLoss, ring_modRing_self]
  have inner : Inner r t ((((t.abortPutQueue r).abortTakeQueue r).modPut r PutEngine.abortTear).revokeTake r) :=
    ((((inner_abortPutQueue t r).trans (inner_abortTakeQueue _ r)).trans
      (inner_modPut _ r PutEngine.abortTear)).trans (inner_revokeTake _ r))
  generalize (((t.abortPutQueue r).abortTakeQueue r).modPut r PutEngine.abortTear).revokeTake r = u at inner ⊢
  exact inner.ring.state.trans aborting

theorem positionsAt_abortRing (h : positionsAt s r) (serving : (s.ring r).state.serving = true) :
    positionsAt (s.abortRing r) r := by
  have sound := rolesSound_abortEffects (rolesSound_of_active h (ne_idle_of_serving serving))
  have state := state_abortEffects s r
  unfold State.abortRing
  generalize s.abortEffects r = t at sound state ⊢
  exact positionsAt_settle (positionsAt_of_active (by rw [state]; simp) sound)

theorem positionsAt_flushRing (h : positionsAt s r) (running : (s.ring r).state = .running) :
    positionsAt (s.flushRing r) r := by
  have ne : (s.ring r).state ≠ .idle := by rw [running]; simp
  refine positionsAt_inner (inner_flushRing s r) ne ?_
  unfold State.flushRing
  refine rolesSound_roomAppears ?_
  obtain ⟨take, events, ring, absent⟩ := ring_revokeTake (s.modRing r Ring.flushSet) r
  rw [ring, ring_modRing_self]
  exact (rolesSound_of_active h ne).emptied rfl rfl (Nat.sub_self _) rfl rfl absent

end

/-! ## Every event -/

theorem keptByRings_positions : KeptByRings positionsAt where
  congr := fun ring clear h => by
    unfold positionsAt at h ⊢
    rwa [ring, clear]
  reset := fun {s r} ring clear => by
    unfold positionsAt
    rw [ring, if_pos (show Ring.reset.state = .idle from rfl)]
    exact ⟨rfl, rfl, rfl, clear⟩
  events := fun ring clear h => by
    unfold positionsAt at h ⊢
    rwa [ring, clear]
  configure := fun {s r} h c idle => by
    unfold positionsAt at h ⊢
    rw [if_pos idle] at h
    rw [ring_modRing_self, if_pos (show ({ s.ring r with config := c } : Ring).state = .idle from idle)]
    exact h
  putRequest := positionsAt_putRequest
  takeRequest := positionsAt_takeRequest
  putOutcome := fun h busy e _ q u g status => positionsAt_putOutcome h busy e q u g status
  takeOutcome := fun h busy e _ q u status data => positionsAt_takeOutcome h busy e q u status data
  putParkExpiry := positionsAt_putParkExpiry
  takeParkExpiry := positionsAt_takeParkExpiry
  ageExpiry := positionsAt_ageExpiry
  searchTimerExpiry := fun {s r} h => (sameBare_searchTimerExpiry s r).positionsAt h
  secondBoundary := fun {s r} h => (sameBare_secondBoundary s r).positionsAt h
  lateExpiry := positionsAt_lateExpiry
  settle := positionsAt_settle
  startRing := fun _ accepted => positionsAt_startRing accepted
  stopRing := positionsAt_stopRing
  abortRing := positionsAt_abortRing
  flushRing := positionsAt_flushRing
  commandFields := fun {s r} h b v =>
    (sameBare_modRing s r (fun x => { x with command := b, result := v }) rfl).positionsAt h

/-! ## Positions apart (R43, R126) -/

/-- Positions at different distances from `t` differ. -/
theorem ne_of_distance {n t p q : Nat} (h : distance n t p ≠ distance n t q) : p ≠ q :=
  fun same => h (by rw [same])

/-- Sound positions are apart: each role has its own distance from `t`. -/
theorem Placed.apart {x : Ring} (h : Placed x x.put.slotOpen) : x.PositionsApart := by
  have head := h.head
  have fits : x.occ + bit x.put.slotOpen ≤ x.config.slots ∧
      (x.config.kind = .paced → x.occ + bit x.put.slotOpen + 1 ≤ x.config.slots) := by
    have one := bit_le_one x.put.slotOpen
    cases kind : x.config.kind with
    | message =>
      have := (h.message kind).1
      exact ⟨by omega, by simp⟩
    | paced =>
      have := (h.paced kind).1
      have := (h.marks kind).1
      exact ⟨by omega, fun _ => by omega⟩
  have published : ∀ j, j < x.occ → distance x.config.slots x.t ((x.t + j) % x.config.slots) = j :=
    fun j hj => distance_add head (by omega)
  have open_ : x.put.slotOpen = true →
      x.occ < x.config.slots ∧ distance x.config.slots x.t x.put.position = x.occ := fun opened => by
    have fits := fits.1
    rw [opened, bit_true] at fits
    exact ⟨by omega, by rw [h.slot opened]; exact distance_add head (by omega)⟩
  have taken : x.take.record.present = true →
      x.occ + bit x.put.slotOpen ≤ distance x.config.slots x.t x.take.record.position := fun present => by
    cases kind : x.config.kind with
    | message =>
      obtain ⟨room, -, before⟩ := h.message kind
      rw [before present, distance_before head]
      rw [present, bit_true] at room
      omega
    | paced => exact ((h.paced kind).2 present).2
  refine ⟨fun j k hj hk => ?_, fun opened j hj => ?_, fun present => ⟨fun j hj => ?_, fun opened => ?_⟩,
    fun kind => ⟨fun j hj => ?_, fun opened => ?_⟩⟩ <;> refine ne_of_distance (n := x.config.slots) (t := x.t) ?_
  · rw [published j (by omega), published k hk]
    omega
  · rw [published j hj, (open_ opened).2]
    omega
  · have := taken present
    rw [published j hj]
    omega
  · have := taken present
    rw [opened, bit_true] at this
    rw [(open_ opened).2]
    omega
  · have := fits.2 kind
    rw [published j hj, distance_before head]
    omega
  · have := fits.2 kind
    rw [opened, bit_true] at this
    rw [(open_ opened).2, distance_before head]
    omega

/-- Settles O56: an event changes the places of its own ring only, and there each move of the engines keeps
the roles at their distances from the head. -/
theorem everyStepKeepsPositionsApart : Obligations.EveryStepKeepsPositionsApart := by
  refine ⟨positionsSound_iff_at ▸ keptByRings_positions.everyEvent.everyStep, fun s h r active => ?_⟩
  have sound := h r
  rw [if_neg active] at sound
  exact ((positionsSound_iff _).1 sound).apart

end Sys2Proof.Laws

/-! PROOFS. The queue of commands, the resets and the Timebase (R20, R21, R48, R137, R138): that every command
completes and leaves the queue, what power-on and RESET_N leave; with O1 to O4, O6 and O60. -/

namespace Sys2Proof.Laws

open Sys2Proof.Machine

/-! ## The queue (log 1) -/

/-- Settles O1: an update of the queue is undone by the next one. -/
theorem stepRunsTheFrontCommand : Obligations.StepRunsTheFrontCommand := by
  refine ⟨fun c s => rfl, fun s empty => ?_⟩
  unfold step
  rw [empty]

/-- No event touches the queue of commands. -/
theorem keptByMoved_pending (p : List Instr) : KeptByMoved (fun s => s.pending = p) where
  moved := fun moved h => moved.pending.trans h
  poweredOn := fun h _ => h
  assertReset := fun h => h
  releaseReset := fun h _ => h
  tick := fun h => h
  sendUp := fun h _ => h
  enterOutstanding := fun h _ _ _ => h
  setTag := fun h _ _ => h
  queues := fun h _ _ => h
  snapshotRing := fun h _ => h
  zeroEvents := fun {s} h => (congrArg State.pending (eventsOnly_zeroEvents s)).trans h
  modSurvey := fun h _ => h
  syncLevel := fun h _ => h
  coalescingTick := fun {s} h => (congrArg State.pending (eventsOnly_coalescingTick s)).trans h
  endPulse := fun {s} h => (congrArg State.pending (eventsOnly_endPulse s)).trans h
  modPort := fun h _ _ => h
  latch := fun {s} h f j => by
    unfold State.latch
    split <;> exact h
  clearRingFlags := fun {s} h r mask => (congrArg State.pending (eventsOnly_clearRingFlags s r mask)).trans h
  clearGlobalFlags := fun {s} h mask => (congrArg State.pending (eventsOnly_clearGlobalFlags s mask)).trans h
  setRingEnables := fun {s} h r en => (congrArg State.pending (eventsOnly_setRingEnables s r en)).trans h
  setGlobalEnables := fun {s} h en => (congrArg State.pending (eventsOnly_setGlobalEnables s en)).trans h
  setPeriod := fun {s} h p => (congrArg State.pending (eventsOnly_setPeriod s p)).trans h
  downTimeout := fun h _ => h
  configure := fun h _ _ _ => h

/-- A command completes unless it is a request that the link does not deliver (log 5). -/
theorem exec_completes (s : State) {c : Instr} (form : ∀ q, c = .upstreamRequest q → q.wellFormed = true) :
    ∃ t, exec c s = .next t := by
  cases c
  case upstreamRequest q => exact ⟨s.offer q, if_pos (form q rfl)⟩
  all_goals exact ⟨_, rfl⟩

/-- Settles O2: only UPSTREAM_REQUEST tests the form of its operand, and no event touches the queue. -/
theorem commandsCompleteAndLeaveTheQueue : Obligations.CommandsCompleteAndLeaveTheQueue := by
  refine ⟨fun c s form => ?_, fun q s illFormed => if_neg (by simp [illFormed])⟩
  obtain ⟨t, run⟩ := exec_completes s form
  exact ⟨t, run, (keptByMoved_pending s.pending).commands.exec rfl run⟩

/-! ## Power-on (R20, R48) -/

/-- While every ring is IDLE no address lies in a region (table 1.3). -/
theorem regionOf_of_idle {s : State} (idle : ∀ r, (s.ring r).state = .idle) (d : Dir) (a : Nat) :
    s.regionOf d a = none := by
  unfold State.regionOf
  rw [List.findSome?_eq_none_iff]
  intro r _
  unfold Ring.regionOf
  rw [idle r]
  rfl

theorem classify_of_idle {s : State} (idle : ∀ r, (s.ring r).state = .idle) (q : UpRequest) :
    s.classify q = .pass ∨ (s.classify q = .straddle ∧ 0xFFFFFFFC < q.addr.toNat + 4 * (q.count - 1)) := by
  by_cases past : 0xFFFFFFFC < q.addr.toNat + 4 * (q.count - 1)
  · exact .inr ⟨classify_past_top past, past⟩
  · left
    unfold State.classify State.wordRegions
    simp only [regionOf_of_idle idle, if_neg past]
    simp

/-- The address that the pins select (R171). -/
theorem deviceAddress_toNat (pins : BitVec 2) : (Port.reset pins).deviceAddress.toNat = 0x58 + pins.toNat := by
  revert pins
  decide

theorem ring_poweredOn (s : State) (pins : BitVec 2) (r : RingId) : (s.poweredOn pins).ring r = Ring.reset :=
  ring_reset r

/-- Settles O3: power-on replaces every block by its reset value. -/
theorem powerOnSetsEveryBlock : Obligations.PowerOnSetsEveryBlock := by
  intro pins s
  have rings := ring_poweredOn s pins
  have idle : ∀ r, ((s.poweredOn pins).ring r).state = .idle := fun r => by rw [rings r]; rfl
  refine ⟨s.poweredOn pins, rfl, rfl, fun i => ?_, rfl, rfl, idle, classify_of_idle idle, rfl, rfl, rings, rfl,
    rfl, rfl, rfl, rfl, rfl, rfl, deviceAddress_toNat pins, rfl, rfl, rfl, rfl, rfl, rfl, rfl, rfl⟩
  simp [State.poweredOn, State.reset]

/-! ## RESET_N (R21) -/

theorem ring_assertReset (s : State) (r : RingId) : s.assertReset.ring r = Ring.reset := ring_reset r

theorem getElem_tags_assertReset (s : State) (i : DTag) : s.assertReset.tags[i] = s.tags[i].atReset := by
  simp [State.assertReset]

theorem getElem_tags_releaseReset (s : State) (pins : BitVec 2) (i : DTag) :
    (s.releaseReset pins).tags[i] = s.tags[i].atRelease := by
  simp [State.releaseReset]

/-- While RESET_N is low a command that is no reset changes the level of SYNC or ends the transaction. -/
theorem exec_while_low {c : Instr} {s t : State} (low : s.resetN = false) (powerOn : ∀ pins, c ≠ .powerOn pins)
    (assert : c ≠ .resetNAssert) (release : ∀ pins, c ≠ .resetNRelease pins) (run : exec c s = .next t) :
    t = s ∨ (∃ level, t = { s with syncLevel := level }) ∨ t = { s with port := s.port.ended } := by
  have idle : ∀ f, s.whileUp f = s := fun f => by
    unfold State.whileUp
    rw [low]
    rfl
  cases c
  case upstreamRequest q =>
    refine .inl ?_
    change execUpstreamRequest q s = _ at run
    unfold execUpstreamRequest State.offer State.accepts at run
    split_ifs at run
    · exact (Host.Outcome.next.inj run).symm
    · simp_all
    · simp_all
  case powerOn pins => exact absurd rfl (powerOn pins)
  case resetNAssert => exact absurd rfl assert
  case resetNRelease pins => exact absurd rfl (release pins)
  all_goals
    injection run with run
    subst run
  case syncEdge rising =>
    refine .inr (.inl ⟨rising, if_neg ?_⟩)
    simp [low]
  case stopCondition => exact .inr (.inr rfl)
  case addressByte addr read =>
    refine .inr (.inr ?_)
    simp [State.address, State.modPort, low]
  all_goals exact .inl (idle _)

/-- Settles O4: the assertion replaces every block but the tags, which it makes STALE; while the line is low a
command finds the part down; the release arms the quarantines. -/
theorem resetLineEmptiesAndQuarantines : Obligations.ResetLineEmptiesAndQuarantines := by
  refine ⟨fun s => ?_, fun c s t low powerOn assert release run => ?_, fun pins s low => ?_⟩
  · refine ⟨s.assertReset, rfl, rfl, rfl, rfl, fun i => ?_, ring_assertReset s, rfl, rfl, rfl, rfl, rfl, rfl, rfl,
      rfl, rfl, rfl, rfl, rfl, rfl, rfl, rfl, rfl, rfl, rfl⟩
    rw [getElem_tags_assertReset]
    cases s.tags[i] <;> simp [TagEntry.atReset]
  · rcases exec_while_low low powerOn assert release run with rfl | ⟨level, rfl⟩ | rfl
    · exact ⟨.inl rfl, rfl⟩
    · exact ⟨.inl rfl, rfl⟩
    · exact ⟨.inr rfl, rfl⟩
  · refine ⟨s.releaseReset pins, ?_, fun i => ?_, deviceAddress_toNat pins, rfl⟩
    · show execResetNRelease pins s = _
      unfold execResetNRelease
      rw [low]
      rfl
    · rw [getElem_tags_releaseReset]
      cases s.tags[i] <;> simp [TagEntry.atRelease, armTimer, Config.releaseQuarantine]

/-! ## Time (R137, R138) -/

theorem whileUp_of_up {s : State} (up : s.resetN = true) (f : State → State) : s.whileUp f = f s := if_pos up

/-- The time from `start` to the value that `start` and `k` sum to. -/
theorem elapsed_add {start : Time} {k : Nat} (h : k < 2 ^ 32) :
    (start + BitVec.ofNat 32 k - start).toNat = k := by
  rw [BitVec.add_comm, BitVec.add_sub_cancel, BitVec.toNat_ofNat, Nat.mod_eq_of_lt h]

/-- Settles O6: the difference from the value armed at is the time that has passed, below 2^32. -/
theorem timeAdvancesAndTimersExpire : Obligations.TimeAdvancesAndTimersExpire := by
  refine ⟨fun s up => congrArg Host.Outcome.next (whileUp_of_up up _), fun start interval small => ⟨?_, ?_⟩⟩
  · exact decide_eq_true (elapsed_add (start := start) small).ge
  · intro k before
    refine decide_eq_false ?_
    show ¬interval ≤ (start + BitVec.ofNat 32 k - start).toNat
    rw [elapsed_add (before.trans small)]
    omega

/-! ## The machine after power-on -/

theorem not_overdue_of_reset {s : State} (rings : ∀ r, s.ring r = Ring.reset) : NoRingOverdue s := fun r =>
  idleCondition_of_state (.inl (by rw [rings r]; rfl))

theorem downstreamClear_reset (r : RingId) : State.reset.downstreamClear r = true :=
  (downstreamClear_iff _ r).2 ⟨fun i => by simp [State.reset, TagEntry.busyOf], by simp [State.reset]⟩

/-- Settles O60: after power-on every ring is at its reset value, every table is empty and no flag is up. -/
theorem resetMeetsTheInvariants : Obligations.ResetMeetsTheInvariants := by
  have rings := ring_reset
  have idle : ∀ r, (State.reset.ring r).state = .idle := fun r => by rw [rings r]; rfl
  refine ⟨⟨sparseWf_nil _, sparseWf_nil _⟩, ⟨fun q => Nat.zero_le _, List.Pairwise.nil⟩,
    ⟨fun r => ?_, fun r q b held _ => ?_, fun r _ => ?_⟩, fun r => ?_,
    line_silent rfl rfl (fun r => congrArg (fun x => x.events.flags) (rings r)),
    ⟨fun r active => absurd (idle r) active, fun r q _ active _ => absurd (idle r) active⟩,
    not_overdue_of_reset rings⟩
  · rw [rings r]
    exact ⟨List.Pairwise.nil, fun b held => absurd held List.not_mem_nil⟩
  · rw [rings r] at held
    exact absurd held List.not_mem_nil
  · rw [rings r]
    rfl
  · rw [if_pos (idle r), rings r]
    exact ⟨rfl, rfl, rfl, downstreamClear_reset r⟩

end Sys2Proof.Laws

/-! PROOFS. The check word and the Alignment Checker (R74, R91 to R97, R100): the register one bit at a time, and
the decision of each state; with O30 and O33. -/

namespace Sys2Proof.Laws

open Sys2Proof.Machine

/-! ## The check word (R74) -/

/-- One shift of the register with one data bit. -/
def crcBit (c : BitVec 16) (b : Bool) : BitVec 16 := if c.msb != b then (c <<< 1) ^^^ 0x1021 else c <<< 1

/-- The register is linear: what is added to it before a shift is its data bit and is shifted along. -/
theorem crcShift_xor (c x : BitVec 16) : crcShift (c ^^^ x) = crcBit c x.msb ^^^ (x <<< 1) := by
  unfold crcShift crcBit
  rw [BitVec.msb_xor, BitVec.shiftLeft_xor_distrib]
  by_cases h : (c.msb ^^ x.msb) = true
  · rw [if_pos h, if_pos h, BitVec.xor_assoc, BitVec.xor_assoc, BitVec.xor_comm (x <<< 1)]
  · rw [if_neg h, if_neg h]

/-- The byte's bits reach the top of the register one after the other, and then none is left. -/
theorem byteInUpperHalf (b : BitVec 8) :
    let x := b.zeroExtend 16 <<< 8
    (∀ i < 8, (x <<< i).msb = b.getLsbD (7 - i)) ∧ x <<< 8 = 0#16 := by
  revert b
  decide +kernel

/-- A byte added to the upper half is eight data bits. -/
theorem crcByte_eq_bits (c : BitVec 16) (b : BitVec 8) :
    crcByte c b = [7, 6, 5, 4, 3, 2, 1, 0].foldl (fun c i => crcBit c (b.getLsbD i)) c := by
  obtain ⟨bits, none⟩ := byteInUpperHalf b
  unfold crcByte
  dsimp only
  generalize b.zeroExtend 16 <<< 8 = x at bits none ⊢
  have shift : ∀ (c : BitVec 16) (i : Nat), i < 8 →
      crcShift (c ^^^ (x <<< i)) = crcBit c (b.getLsbD (7 - i)) ^^^ (x <<< (i + 1)) := fun c i hi => by
    rw [crcShift_xor, bits i hi, BitVec.shiftLeft_add]
  have start := shift c 0 (by omega)
  rw [BitVec.shiftLeft_zero] at start
  rw [start, shift _ 1 (by omega), shift _ 2 (by omega), shift _ 3 (by omega), shift _ 4 (by omega),
    shift _ 5 (by omega), shift _ 6 (by omega), shift _ 7 (by omega), none, BitVec.xor_zero]
  rfl

/-- Settles O30: a word is its four bytes, and a byte is eight data bits. -/
theorem checkWordRunsBitByBit : Obligations.CheckWordRunsBitByBit := by
  refine ⟨rfl, fun _ => rfl, fun _ _ _ => rfl, fun c w => ?_⟩
  have bits : List.range 32 = [0, 1, 2, 3, 4, 5, 6, 7, 8, 9, 10, 11, 12, 13, 14, 15, 16, 17, 18, 19, 20, 21, 22,
      23, 24, 25, 26, 27, 28, 29, 30, 31] := rfl
  show crcWord c w = (List.range 32).foldl (fun c i => crcBit c (w.getLsbD (31 - i))) c
  unfold crcWord
  simp only [crcByte_eq_bits, bits, List.foldl_cons, List.foldl_nil, BitVec.getLsbD_extractLsb', Nat.reduceLT,
    Nat.reduceAdd, Nat.reduceSub, decide_true, Bool.true_and]

/-! ## The Alignment Checker (R91 to R97, R100) -/

theorem searchTimerAt_eq (c : RingConfig) (now : Time) :
    c.searchTimerAt now = if c.alignMode = .auto then some ⟨now, c.searchTimeout.toNat * 1000⟩ else none := by
  unfold RingConfig.searchTimerAt
  cases c.alignMode <;> rfl

section

variable {a : AlignChecker} {c : RingConfig} {now : Time} {marker : BitVec 16} {sq : BitVec 8}

theorem judge_of_search (search : a.state = .search) :
    a.judge c now marker sq = a.judgeSearch (marker == c.marker) sq := by
  simp [AlignChecker.judge, search]

theorem judge_of_confirm (confirm : a.state = .confirm) :
    a.judge c now marker sq = a.judgeConfirm c now (marker == c.marker) sq := by
  simp [AlignChecker.judge, confirm]

theorem judge_of_aligned (aligned : a.state = .aligned) :
    a.judge c now marker sq = a.judgeAligned c now (marker == c.marker) sq := by
  simp [AlignChecker.judge, aligned]

end

/-- Settles O33: one branch of the judgement for each clause. -/
theorem alignmentDecidesByState : Obligations.AlignmentDecidesByState := by
  intro a c now marker sq armed timer
  rw [← searchTimerAt_eq] at timer
  subst timer
  refine ⟨?_, fun search same => ?_, fun search other => ?_, fun confirm same next => ?_,
    fun confirm same other => ?_, fun confirm other => ?_, fun aligned same => ?_,
    fun aligned other => ⟨fun failed => ?_, fun few many => ?_, fun few fewer => ?_⟩⟩
  · rintro (off | bypassed) <;> simp [AlignChecker.judge, *]
  · simp [judge_of_search search, AlignChecker.judgeSearch, same]
  · simp [judge_of_search search, AlignChecker.judgeSearch, other]
  · simp [judge_of_confirm confirm, AlignChecker.judgeConfirm, same, next]
  · have breaks : (sq == a.candidate + 1) = false := beq_eq_false_iff_ne.2 other
    simp only [judge_of_confirm confirm, AlignChecker.judgeConfirm, AlignChecker.judgeSearch, same, breaks,
      BEq.rfl, Bool.and_false, Bool.false_eq_true, if_false, if_true]
  · simp [judge_of_confirm confirm, AlignChecker.judgeConfirm, AlignChecker.judgeSearch, other]
  · simp [judge_of_aligned aligned, AlignChecker.judgeAligned, same]
  · simp [judge_of_aligned aligned, AlignChecker.judgeAligned, AlignChecker.lose, Config.failureLimit, other, failed]
  · simp [judge_of_aligned aligned, AlignChecker.judgeAligned, AlignChecker.lose, Config.failureLimit, other, many,
      few.not_ge]
  · simp [judge_of_aligned aligned, AlignChecker.judgeAligned, Config.failureLimit, other, few.not_ge, fewer.not_gt]

end Sys2Proof.Laws

/-! PROOFS. The memory link and the Memory Port (chapter 1): withheld requests, the regions of the active rings,
the checks of both apertures and the life of a downstream tag; with O7, O8, O10, O14 and O15. -/

namespace Sys2Proof.Laws

open Sys2Proof.Machine

/-! ## Acceptance (R1, R3) -/

theorem exec_upstreamRequest_wellFormed {s : State} {q : UpRequest} (form : q.wellFormed = true) :
    exec (.upstreamRequest q) s = .next (s.offer q) := if_pos form

theorem accepts_iff (s : State) (q : Requester) :
    s.accepts q = true ↔ s.resetN = true ∧ s.outstandingOf q < 8 ∧ s.tagsInUse < 64 := by
  unfold State.accepts
  rw [Bool.and_eq_true, Bool.and_eq_true, decide_eq_true_eq, decide_eq_true_eq, and_assoc]
  rfl

theorem offer_of_withheld {s : State} {q : UpRequest} (h : ¬s.accepts q.requester = true) : s.offer q = s := by
  simp [State.offer, h]

theorem offer_of_clash {s : State} {q : UpRequest} (accepted : s.accepts q.requester = true)
    (held : s.pairHeld q.requester q.tag = true) : s.offer q = s.tagClash q := by
  simp [State.offer, accepted, held]

/-- Settles O7: a request beyond the limits is not looked at, and a clash is answered before it gets an entry. -/
theorem withheldAndClashingRequests : Obligations.WithheldAndClashingRequests := by
  refine ⟨fun q s form full => ?_, fun q s form up few free held => ?_⟩
  · rw [exec_upstreamRequest_wellFormed form, offer_of_withheld]
    rw [accepts_iff]
    omega
  · have accepted := (accepts_iff s q.requester).2 ⟨up, few, free⟩
    refine ⟨s.tagClash q, ?_, rfl⟩
    rw [exec_upstreamRequest_wellFormed form, offer_of_clash accepted held]

/-! ## Regions (R5, table 1.3) -/

theorem inRange_iff (lo len a : Nat) : inRange lo len a = true ↔ lo ≤ a ∧ a < lo + len := by
  simp [inRange]

/-- Ranges that do not overlap share no address. -/
theorem apart_of_overlap {b c : Nat × Nat} {a : Nat} (apart : overlap b c = false)
    (inb : inRange b.1 b.2 a = true) : inRange c.1 c.2 a = false := by
  by_contra both
  rw [inRange_iff] at inb
  have inc := (inRange_iff c.1 c.2 a).1 (Bool.eq_true_of_not_eq_false both)
  simp only [overlap, Bool.and_eq_false_iff, decide_eq_false_iff_not] at apart
  omega

theorem active_iff (st : RingState) : st.active = true ↔ st ≠ .idle := by
  cases st <;> simp [RingState.active]

/-- The ring that a region belongs to. -/
def ringOf : Region → RingId
  | .put r => r
  | .take r => r
  | .guarded r => r

/-- A ring finds an address only in a region of its own that table 1.3 puts it in. -/
theorem liesIn_of_ring_regionOf {s : State} {r : RingId} {d : Dir} {a : Nat} {g : Region}
    (h : (s.ring r).regionOf r d a = some g) : ringOf g = r ∧ g.decodedFor d ∧ s.liesIn g a := by
  have active := (active_iff _).1 (regionOf_own h).1
  unfold Ring.regionOf at h
  split_ifs at h with idle put take guarded
  · cases h
    exact ⟨rfl, trivial, active, (inRange_iff _ _ _).1 put⟩
  · cases h
    exact ⟨rfl, trivial, active, (inRange_iff _ _ _).1 take⟩
  · cases h
    simp only [Bool.and_eq_true, decide_eq_true_eq] at guarded
    exact ⟨rfl, guarded.1.1, active, guarded.1.2, (inRange_iff _ _ _).1 guarded.2⟩

/-- With its ranges apart, a ring finds an address in the region that table 1.3 puts it in. -/
theorem ring_regionOf_of_liesIn {s : State} {d : Dir} {a : Nat} {g : Region}
    (apart : (s.ring (ringOf g)).config.selfOverlap = false) (decoded : g.decodedFor d) (lies : s.liesIn g a) :
    (s.ring (ringOf g)).regionOf (ringOf g) d a = some g := by
  simp only [RingConfig.selfOverlap, Bool.or_eq_false_iff] at apart
  obtain ⟨⟨putTake, putStorage⟩, takeStorage⟩ := apart
  unfold Ring.regionOf
  cases g with
  | put r =>
    simp only [ringOf] at *
    obtain ⟨ne, inside⟩ := lies
    have put : inRange (s.ring r).config.putBase.toNat (s.ring r).config.apertureBytes a = true :=
      (inRange_iff _ _ _).2 inside
    simp [(active_iff _).2 ne, put]
  | take r =>
    simp only [ringOf] at *
    obtain ⟨ne, inside⟩ := lies
    have take : inRange (s.ring r).config.takeBase.toNat (s.ring r).config.apertureBytes a = true :=
      (inRange_iff _ _ _).2 inside
    have put : inRange (s.ring r).config.putBase.toNat (s.ring r).config.apertureBytes a = false :=
      apart_of_overlap ((overlap_comm _ _).trans putTake) take
    simp [(active_iff _).2 ne, put, take]
  | guarded r =>
    simp only [ringOf] at *
    obtain ⟨ne, guard, inside⟩ := lies
    have stored : inRange (s.ring r).config.storageBase.toNat (s.ring r).config.storageBytes a = true :=
      (inRange_iff _ _ _).2 inside
    have put : inRange (s.ring r).config.putBase.toNat (s.ring r).config.apertureBytes a = false :=
      apart_of_overlap ((overlap_comm _ _).trans putStorage) stored
    have take : inRange (s.ring r).config.takeBase.toNat (s.ring r).config.apertureBytes a = false :=
      apart_of_overlap ((overlap_comm _ _).trans takeStorage) stored
    have write : d = .write := decoded
    simp [(active_iff _).2 ne, put, take, stored, guard, write]

/-- An address in a region lies in a range of the region's ring, which is active. -/
theorem range_of_liesIn {s : State} {g : Region} {a : Nat} (lies : s.liesIn g a) :
    (s.ring (ringOf g)).state ≠ .idle ∧
      ∃ b ∈ (s.ring (ringOf g)).config.ranges, inRange b.1 b.2 a = true := by
  cases g with
  | put r => exact ⟨lies.1, (s.ring r).config.putRange, by simp [RingConfig.ranges, ringOf],
      (inRange_iff (s.ring r).config.putRange.1 (s.ring r).config.putRange.2 a).2 lies.2⟩
  | take r => exact ⟨lies.1, (s.ring r).config.takeRange, by simp [RingConfig.ranges, ringOf],
      (inRange_iff (s.ring r).config.takeRange.1 (s.ring r).config.takeRange.2 a).2 lies.2⟩
  | guarded r => exact ⟨lies.1, (s.ring r).config.storageRange, by simp [RingConfig.ranges, ringOf],
      (inRange_iff (s.ring r).config.storageRange.1 (s.ring r).config.storageRange.2 a).2 lies.2.2⟩

/-- No address lies in regions of two rings (R29, R30). -/
theorem ringOf_unique {s : State} (apart : RegionsSound s) {g h : Region} {a : Nat} (lies : s.liesIn g a)
    (other : s.liesIn h a) : ringOf h = ringOf g := by
  by_contra ne
  obtain ⟨activeG, b, memB, inB⟩ := range_of_liesIn lies
  obtain ⟨activeH, c, memC, inC⟩ := range_of_liesIn other
  have cross := apart.2 (ringOf g) (ringOf h) (Ne.symm ne) activeG activeH
  simp only [RingConfig.crossOverlap, List.any_eq_false] at cross
  have apartBC := cross b memB
  simp only [Bool.not_eq_true, List.any_eq_false] at apartBC
  have := apart_of_overlap (apartBC c memC) inB
  exact absurd (this.symm.trans inC) (by simp)

/-- The region that the part decodes for an address is the one of table 1.3 (R5). -/
theorem regionOf_iff {s : State} (apart : RegionsSound s) (d : Dir) (a : Nat) (g : Region) :
    s.regionOf d a = some g ↔ g.decodedFor d ∧ s.liesIn g a := by
  constructor
  · intro found
    obtain ⟨r, found⟩ := ring_of_regionOf found
    exact (liesIn_of_ring_regionOf found).2
  · rintro ⟨decoded, lies⟩
    have own := ring_regionOf_of_liesIn (apart.1 _ (range_of_liesIn lies).1).2 decoded lies
    cases found : s.regionOf d a with
    | none =>
      have none := List.findSome?_eq_none_iff.1 found (ringOf g) (mem_allRings _)
      exact absurd (own.symm.trans none) (by simp)
    | some h =>
      obtain ⟨r, foundR⟩ := ring_of_regionOf found
      obtain ⟨rfl, -, liesH⟩ := liesIn_of_ring_regionOf foundR
      rw [ringOf_unique apart lies liesH] at foundR
      exact foundR.symm.trans own

theorem regionOf_none {s : State} (apart : RegionsSound s) {d : Dir} {a : Nat}
    (h : ∀ g, g.decodedFor d → ¬s.liesIn g a) : s.regionOf d a = none := by
  cases found : s.regionOf d a with
  | none => rfl
  | some g =>
    obtain ⟨decoded, lies⟩ := (regionOf_iff apart d a g).1 found
    exact absurd lies (h g decoded)

/-! ## Classes (R4, R5) -/

section

variable {s : State} {q : UpRequest}

theorem classify_of_none (below : q.addr.toNat + 4 * (q.count - 1) ≤ 0xFFFFFFFC)
    (none : ∀ i < q.count, s.regionOf q.dir (q.addr.toNat + 4 * i) = none) (some : 1 ≤ q.count) :
    s.classify q = .pass := by
  have first := none 0 some
  rw [Nat.mul_zero, Nat.add_zero] at first
  unfold State.classify
  simp only [if_neg below.not_gt, first]
  refine if_pos (List.all_eq_true.2 fun g mem => ?_)
  obtain ⟨i, inside, rfl⟩ := List.mem_map.1 mem
  rw [none i (List.mem_range.1 inside)]
  rfl

theorem classify_of_region {g : Region} (below : q.addr.toNat + 4 * (q.count - 1) ≤ 0xFFFFFFFC)
    (all : ∀ i < q.count, s.regionOf q.dir (q.addr.toNat + 4 * i) = some g) (some : 1 ≤ q.count) :
    s.classify q = s.classIn g q.addr.toNat := by
  have first := all 0 some
  rw [Nat.mul_zero, Nat.add_zero] at first
  unfold State.classify
  simp only [if_neg below.not_gt, first]
  refine if_pos (List.all_eq_true.2 fun h mem => ?_)
  obtain ⟨i, inside, rfl⟩ := List.mem_map.1 mem
  rw [all i (List.mem_range.1 inside)]
  exact beq_self_eq_true _

/-- Words in different regions, or some in one and some in none, straddle. -/
theorem classify_of_mixed {i j : Nat} (hi : i < q.count) (hj : j < q.count)
    (mixed : s.regionOf q.dir (q.addr.toNat + 4 * i) ≠ s.regionOf q.dir (q.addr.toNat + 4 * j)) :
    s.classify q = .straddle := by
  have notAll : ∀ g, ¬(s.wordRegions q).all (fun h => h == g) = true := fun g all => mixed (by
    have word : ∀ k, k < q.count → s.regionOf q.dir (q.addr.toNat + 4 * k) = g := fun k hk =>
      beq_iff_eq.1 (List.all_eq_true.1 all _ (List.mem_map.2 ⟨k, List.mem_range.2 hk, rfl⟩))
    rw [word i hi, word j hj])
  unfold State.classify
  dsimp only
  split
  · rfl
  · split
    · exact if_neg (notAll _)
    · exact if_neg (notAll _)

end

/-- Settles O8: while the regions of the active rings are apart, each word of the request has the region of
table 1.3, and the class goes by the regions of its words. -/
theorem requestsAreClassified : Obligations.RequestsAreClassified := by
  intro s q apart some below
  have word : ∀ g, g.decodedFor q.dir → (∀ i < q.count, s.liesIn g (q.addr.toNat + 4 * i)) →
      s.classify q = s.classIn g q.addr.toNat := fun g decoded lies =>
    classify_of_region below (fun i hi => (regionOf_iff apart _ _ g).2 ⟨decoded, lies i hi⟩) some
  refine ⟨fun none => ?_, fun r => word (.put r) trivial, fun r => word (.take r) trivial,
    fun r write => word (.guarded r) write, ?_⟩
  · exact classify_of_none below (fun i hi => regionOf_none apart (none i hi)) some
  · rintro ⟨g, decoded, ⟨i, hi, inside⟩, j, hj, outside⟩
    refine classify_of_mixed hi hj fun same => outside ?_
    rw [(regionOf_iff apart _ _ g).2 ⟨decoded, inside⟩] at same
    exact ((regionOf_iff apart _ _ g).1 same.symm).2

/-! ## The checks of R9 -/

section

variable {x : Ring} {f : Filter} {q : UpRequest} {k : Nat}

theorem commonCheck_aborting (aborting : x.state = .aborting) : x.commonCheck f q k = some .aborting :=
  if_pos aborting

theorem commonCheck_wrongRequester (up : x.state ≠ .aborting) {p : Requester} (other : p ≠ q.requester)
    (filter : f = .only p) : x.commonCheck f q k = some .wrongRequester := by
  subst filter
  simp [Ring.commonCheck, up, Filter.passes, other]

theorem passes_of (filter : f = .any ∨ f = .only q.requester) : f.passes q.requester = true := by
  rcases filter with rfl | rfl <;> simp [Filter.passes]

theorem commonCheck_mixed (up : x.state ≠ .aborting) (filter : f = .any ∨ f = .only q.requester)
    (many : 1 < q.count) (reaches : x.config.slotWords ≤ k + q.count - 1) :
    x.commonCheck f q k = some .mixed := by
  simp [Ring.commonCheck, up, passes_of filter, touchesControl, many, reaches]

theorem commonCheck_passed (up : x.state ≠ .aborting) (filter : f = .any ∨ f = .only q.requester)
    (one : q.count ≤ 1 ∨ k + q.count - 1 < x.config.slotWords) : x.commonCheck f q k = none := by
  have mixed : (decide (1 < q.count) && touchesControl x.config k q.count) = false := by
    simp only [touchesControl, Bool.and_eq_false_iff, decide_eq_false_iff_not]
    omega
  simp [Ring.commonCheck, up, passes_of filter, mixed]

/-- Where the checks that both apertures share pass, the cell of table 1.4 decides. -/
theorem putCheck_of_common (common : x.commonCheck x.config.producer q k = none) :
    x.putCheck q k = x.putCell q k := by
  simp [Ring.putCheck, common]

theorem takeCheckCause_of_common (common : x.commonCheck x.config.consumer q k = none) :
    x.takeCheckCause q k = takeCell q := by
  simp [Ring.takeCheckCause, common]

theorem putCheck_of_refused {c : Cause} (common : x.commonCheck x.config.producer q k = some c) :
    x.putCheck q k = some c := by
  simp [Ring.putCheck, common]

theorem takeCheckCause_of_refused {c : Cause} (common : x.commonCheck x.config.consumer q k = some c) :
    x.takeCheckCause q k = some c := by
  simp [Ring.takeCheckCause, common]

end

/-- Settles O10: the checks that the apertures share, and then the cells of table 1.4. -/
theorem apertureChecksInOrder : Obligations.ApertureChecksInOrder := by
  intro x q k
  refine ⟨fun aborting => ⟨putCheck_of_refused (commonCheck_aborting aborting),
      takeCheckCause_of_refused (commonCheck_aborting aborting)⟩,
    fun up p other => ⟨fun filter => putCheck_of_refused (commonCheck_wrongRequester up other filter),
      fun filter => takeCheckCause_of_refused (commonCheck_wrongRequester up other filter)⟩,
    fun up many reaches => ⟨fun filter => putCheck_of_refused (commonCheck_mixed up filter many reaches),
      fun filter => takeCheckCause_of_refused (commonCheck_mixed up filter many reaches)⟩,
    fun up one => ⟨fun filter => ?_, fun filter => ?_⟩⟩
  · rw [putCheck_of_common (commonCheck_passed up filter one)]
    refine ⟨fun read status => ?_, fun read other => ?_, fun write above => ?_, fun write size => ?_,
      fun write below full => ?_, fun write below partialLanes => ?_⟩
    · simp [Ring.putCell, read, status]
    · simp [Ring.putCell, read, other]
    · simp [Ring.putCell, write, above.not_gt, above.ne']
    · simp [Ring.putCell, write, size]
    · simpa [Ring.putCell, write, below] using full
    · simpa [Ring.putCell, write, below] using partialLanes
  · rw [takeCheckCause_of_common (commonCheck_passed up filter one)]
    exact ⟨fun read => by simp [takeCell, read], fun write => by simp [takeCell, write]⟩

/-! ## Tags (R13 to R16) -/

section

variable {s : State}

/-- The lowest FREE tag is the one below which none is FREE. -/
theorem lowestFreeTag_of {t : DTag} (free : s.tags[t] = .free) (lowest : ∀ j : DTag, j < t → s.tags[j] ≠ .free) :
    s.lowestFreeTag = some t := by
  have isFree : (s.tags[t] == .free) = true := beq_iff_eq.2 free
  cases found : s.lowestFreeTag with
  | none => exact absurd isFree (List.find?_eq_none.1 found t (List.mem_finRange t))
  | some j =>
    obtain ⟨freeJ, before, after, parts, none⟩ := List.find?_eq_some_iff_append.1 found
    have order := List.pairwise_lt_finRange 64
    have mem := List.mem_finRange t
    unfold allTags at parts
    rw [parts] at order mem
    have least : ∀ i ∈ after, j < i := (List.pairwise_cons.1 (List.pairwise_append.1 order).2.1).1
    rcases List.mem_append.1 mem with earlier | later
    · exact absurd isFree (by simpa using none t earlier)
    · rcases List.mem_cons.1 later with rfl | later
      · rfl
      · exact absurd (beq_iff_eq.1 freeJ) (lowest j (least t later))

theorem lowestFreeTag_none (busy : ∀ j : DTag, s.tags[j] ≠ .free) : s.lowestFreeTag = none :=
  List.find?_eq_none.2 fun j _ => by simpa using busy j

theorem issueHead_of {i : Issue} {rest : List Issue} {t : DTag} (queue : s.issueQueue = i :: rest)
    (lowest : s.lowestFreeTag = some t) : s.issueHead = { s with
      issueQueue := rest
      tags := s.tags.set t
        (.busy i.owner i.requester i.tag i.generation ⟨s.timebase, s.downTimeout.toNat⟩)
      downRequests := s.downRequests ++ [⟨t, i.dir, i.addr, i.count, i.data, i.lanes⟩] } := by
  unfold State.issueHead
  rw [queue, lowest]
  rfl

theorem issueHead_of_none (h : s.issueQueue = [] ∨ s.lowestFreeTag = none) : s.issueHead = s := by
  unfold State.issueHead
  rcases h with h | h <;> rw [h]
  cases s.issueQueue <;> rfl

theorem whileUp_same {f : State → State} (h : f s = s) : s.whileUp f = s := by
  unfold State.whileUp
  split
  · exact h
  · rfl

theorem exec_downstreamResponse_up (up : s.resetN = true) (i : DTag) (status : Status) (data : List Word) :
    exec (.downstreamResponse i status data) s = .next (s.matchResponse i status data) :=
  congrArg Host.Outcome.next (whileUp_of_up up _)

theorem exec_responseTimeout_up (up : s.resetN = true) (i : DTag) :
    exec (.responseTimeout i) s = .next (s.timeoutTag i) := congrArg Host.Outcome.next (whileUp_of_up up _)

theorem exec_quarantineExpiry_up (up : s.resetN = true) (i : DTag) :
    exec (.quarantineExpiry i) s = .next (s.quarantineTag i) := congrArg Host.Outcome.next (whileUp_of_up up _)

end

/-- Settles O14: the issue queue's head looks for the lowest FREE tag, and an answer, a timeout and a quarantine
go by the entry they find. -/
theorem tagsAreTakenMatchedAndFreed : Obligations.TagsAreTakenMatchedAndFreed := by
  refine ⟨fun s i rest t up queue free lowest => ?_, fun s empty => ?_, fun s i status data up => ⟨?_, ?_, ?_⟩,
    fun s i o q u g timeout up busy => ⟨?_, ?_⟩, fun s i quarantine up stale => ⟨?_, ?_⟩⟩
  · refine congrArg Host.Outcome.next ((whileUp_of_up up _).trans ?_)
    exact issueHead_of queue (lowestFreeTag_of free lowest)
  · exact congrArg Host.Outcome.next (whileUp_same (issueHead_of_none (empty.imp_right lowestFreeTag_none)))
  · intro free
    rw [exec_downstreamResponse_up up, State.matchResponse, free]
  · intro quarantine stale
    rw [exec_downstreamResponse_up up, State.matchResponse, stale]
    rfl
  · intro o q u g timeout busy
    exact exec_downstreamResponse_busy up busy status data
  · intro due
    exact exec_responseTimeout_busy up busy due
  · intro early
    rw [exec_responseTimeout_up up, State.timeoutTag, busy]
    simp [early]
  · intro due
    rw [exec_quarantineExpiry_up up, State.quarantineTag, stale]
    simp [timerDue, due, State.setTag]
  · intro early
    rw [exec_quarantineExpiry_up up, State.quarantineTag, stale]
    simp [timerDue, early]

/-! ## Commands of one ring (R19) -/

/-- From `s` to `t` every other ring, the ring's configuration and enables, and the settings of the part stay. -/
structure RingLocal (r : RingId) (s t : State) : Prop where
  others : ∀ q, q ≠ r → t.ring q = s.ring q
  config : (t.ring r).config = (s.ring r).config
  enables : (t.ring r).events.enables = (s.ring r).events.enables
  timebase : t.timebase = s.timebase
  downTimeout : t.downTimeout = s.downTimeout
  period : t.period = s.period
  coalTimer : t.coalTimer = s.coalTimer
  globalEnables : t.globalEnables = s.globalEnables
  setup : t.survey.setup = s.survey.setup
  downRequests : t.downRequests = s.downRequests
  tags : t.tags = s.tags

theorem RingLocal.refl (r : RingId) (s : State) : RingLocal r s s :=
  ⟨fun _ _ => rfl, rfl, rfl, rfl, rfl, rfl, rfl, rfl, rfl, rfl, rfl⟩

theorem RingLocal.trans {r : RingId} {s t u : State} (a : RingLocal r s t) (b : RingLocal r t u) :
    RingLocal r s u :=
  ⟨fun q hq => (b.others q hq).trans (a.others q hq), b.config.trans a.config, b.enables.trans a.enables,
    b.timebase.trans a.timebase, b.downTimeout.trans a.downTimeout, b.period.trans a.period,
    b.coalTimer.trans a.coalTimer, b.globalEnables.trans a.globalEnables, b.setup.trans a.setup,
    b.downRequests.trans a.downRequests, b.tags.trans a.tags⟩

theorem Moved.ringLocal {r : RingId} {s t : State} (h : Moved r s t) : RingLocal r s t :=
  ⟨h.others, h.ring.config, h.ring.enables, h.timebase, h.downTimeout, h.period, h.coalTimer, h.globalEnables,
    h.setup, h.downRequests, h.tags⟩

theorem ringLocal_modPort (r : RingId) (s : State) (f : Port → Port) : RingLocal r s (s.modPort f) :=
  ⟨fun _ _ => rfl, rfl, rfl, rfl, rfl, rfl, rfl, rfl, rfl, rfl, rfl⟩

theorem ringLocal_whileUp {r : RingId} {s : State} {f : State → State} (h : RingLocal r s (f s)) :
    RingLocal r s (s.whileUp f) := by
  unfold State.whileUp
  split
  · exact h
  · exact .refl r s

theorem ringLocal_takeRingCommand (s : State) (r : RingId) (c : RingCommand) :
    RingLocal r s (s.takeRingCommand r c) := by
  have command : RingLocal r s (s.ringCommand r c) := by
    rcases moved_ringCommand_or_snapshot s r c with moved | snapshot
    · exact moved.ringLocal
    · rw [snapshot]
      refine RingLocal.trans (t := s.snapshotRing r) ⟨fun q hq => ring_modEvents_other s _ (Ne.symm hq), ?_, ?_, rfl,
        rfl, rfl, rfl, rfl, rfl, rfl, rfl⟩ (moved_modRing _ r _ rfl rfl).ringLocal
      · exact congrArg (fun x => x.config) (ring_modEvents_self s r RingEvents.snapshot)
      · exact congrArg (fun x => x.events.enables) (ring_modEvents_self s r RingEvents.snapshot)
  unfold State.takeRingCommand State.carriedBy
  split
  · exact command.trans (ringLocal_modPort r _ _)
  · exact command

theorem ringLocal_dispatchRequest {s : State} {q : UpRequest} {r : RingId}
    (acts : s.actsOn (.upstreamRequest q) = some r) : RingLocal r s (s.dispatchRequest q) := by
  unfold State.actsOn at acts
  dsimp only at acts
  unfold State.dispatchRequest
  split at acts
  all_goals simp only [Option.some.injEq, reduceCtorEq] at acts
  all_goals subst acts; rename_i cls; rw [cls]
  · exact (moved_putRequest s _ q _).ringLocal
  · exact (moved_takeRequest s _ q _).ringLocal
  · exact ((inner_raise s _ _).trans (inner_respondError _ _ _ _)).moved.ringLocal

theorem ringLocal_offer {s : State} {q : UpRequest} {r : RingId}
    (acts : s.actsOn (.upstreamRequest q) = some r) : RingLocal r s (s.offer q) := by
  unfold State.offer
  split
  · exact .refl r s
  · split
    · exact ⟨fun _ _ => rfl, rfl, rfl, rfl, rfl, rfl, rfl, rfl, rfl, rfl, rfl⟩
    · exact RingLocal.trans (t := s.enterOutstanding q)
        ⟨fun _ _ => rfl, rfl, rfl, rfl, rfl, rfl, rfl, rfl, rfl, rfl, rfl⟩
        (ringLocal_dispatchRequest (s := s.enterOutstanding q) acts)

/-- The outcome of a downstream request acts on the ring that owns the tag. -/
theorem ringLocal_deliver {s : State} {i : DTag} {r : RingId} {o : Owner} {q : Requester} {u : UTag}
    {g : BitVec 8} {timeout : Timer} (busy : s.tags[i] = .busy o q u g timeout)
    (acts : s.actsOn (.responseTimeout i) = some r) (t : State) (status : Status) (data : List Word) :
    RingLocal r t (t.deliver o q u g status data) := by
  have acts : s.actsOn (.responseTimeout i) = some r := acts
  unfold State.actsOn at acts
  dsimp only at acts
  rw [busy] at acts
  cases o with
  | pass => simp at acts
  | put p =>
    cases acts
    exact (moved_deliver t r (.put r) q u g status data (by simp [Owner.ofRing])).ringLocal
  | take p =>
    cases acts
    exact (moved_deliver t r (.take r) q u g status data (by simp [Owner.ofRing])).ringLocal

/-- Besides what is local to its ring, an answer changes the tag answered. -/
theorem ringLocal_of_setTag {r : RingId} {s t : State} {i : DTag} {e : TagEntry}
    (h : RingLocal r (s.setTag i e) t) :
    RingLocal r s { t with tags := s.tags } ∧ ∀ j : DTag, j ≠ i → t.tags[j] = s.tags[j] := by
  refine ⟨⟨h.others, h.config, h.enables, h.timebase, h.downTimeout, h.period, h.coalTimer, h.globalEnables,
    h.setup, h.downRequests, rfl⟩, fun j ne => ?_⟩
  rw [h.tags, tags_setTag, getElem_set_tag, if_neg (Ne.symm ne)]

theorem ringLocal_matchResponse {s : State} {i : DTag} {r : RingId}
    (acts : s.actsOn (.responseTimeout i) = some r) (status : Status) (data : List Word) :
    RingLocal r s { s.matchResponse i status data with tags := s.tags } ∧
      ∀ j : DTag, j ≠ i → (s.matchResponse i status data).tags[j] = s.tags[j] := by
  unfold State.matchResponse
  split
  · exact ⟨.refl r s, fun _ _ => rfl⟩
  · exact ringLocal_of_setTag (.refl r _)
  · exact ringLocal_of_setTag (ringLocal_deliver ‹_› acts _ _ _)

theorem ringLocal_timeoutTag {s : State} {i : DTag} {r : RingId}
    (acts : s.actsOn (.responseTimeout i) = some r) :
    RingLocal r s { s.timeoutTag i with tags := s.tags } ∧
      ∀ j : DTag, j ≠ i → (s.timeoutTag i).tags[j] = s.tags[j] := by
  unfold State.timeoutTag
  split
  · exact ⟨.refl r s, fun _ _ => rfl⟩
  · exact ⟨.refl r s, fun _ _ => rfl⟩
  · split
    · exact ringLocal_of_setTag (ringLocal_deliver ‹_› acts _ _ _)
    · exact ⟨.refl r s, fun _ _ => rfl⟩

/-- What a command of one ring leaves of the rest, but for the tag it answers. -/
theorem exec_ringLocal {s t : State} {c : Instr} {r : RingId} (acts : s.actsOn c = some r)
    (run : exec c s = .next t) : RingLocal r s { t with tags := s.tags } ∧
      ∀ i : DTag, (∀ status data, c ≠ .downstreamResponse i status data) → c ≠ .responseTimeout i →
        t.tags[i] = s.tags[i] := by
  have untagged : RingLocal r s t → RingLocal r s { t with tags := s.tags } ∧
      ∀ i : DTag, (∀ status data, c ≠ .downstreamResponse i status data) → c ≠ .responseTimeout i →
        t.tags[i] = s.tags[i] := fun h =>
    ⟨⟨h.others, h.config, h.enables, h.timebase, h.downTimeout, h.period, h.coalTimer, h.globalEnables, h.setup,
      h.downRequests, rfl⟩, fun i _ _ => by rw [h.tags]⟩
  cases c
  case upstreamRequest q =>
    change execUpstreamRequest q s = _ at run
    unfold execUpstreamRequest at run
    split_ifs at run
    cases run
    exact untagged (ringLocal_offer acts)
  case downstreamResponse i status data =>
    injection run with run
    subst run
    obtain ⟨rest, tags⟩ := ringLocal_matchResponse (s := s) (i := i) acts status data
    unfold State.whileUp
    split
    · exact ⟨rest, fun j other _ => tags j fun same => other status data (by rw [same])⟩
    · exact ⟨.refl r s, fun _ _ _ => rfl⟩
  case responseTimeout i =>
    injection run with run
    subst run
    obtain ⟨rest, tags⟩ := ringLocal_timeoutTag (s := s) (i := i) acts
    unfold State.whileUp
    split
    · exact ⟨rest, fun j _ other => tags j fun same => other (by rw [same])⟩
    · exact ⟨.refl r s, fun _ _ _ => rfl⟩
  all_goals cases acts
  all_goals
    injection run with run
    subst run
    refine untagged (ringLocal_whileUp ?_)
  case putParkExpiry => exact (moved_putParkExpiry s r).ringLocal
  case takeParkExpiry => exact (moved_takeParkExpiry s r).ringLocal
  case ageExpiry => exact (moved_ageExpiry s r).ringLocal
  case searchTimerExpiry => exact (inner_searchTimerExpiry s r).moved.ringLocal
  case oneSecondBoundary => exact (moved_secondBoundary s r).ringLocal
  case lateTimerExpiry => exact (moved_lateExpiry s r).ringLocal
  case entryToIdle => exact (moved_settle s r).ringLocal
  all_goals exact ringLocal_takeRingCommand s r _

/-- Settles O15: each command of a ring is a move of that ring. -/
theorem ringEventsStayInTheirRing : Obligations.RingEventsStayInTheirRing := by
  intro s t c r acts run
  obtain ⟨rest, tags⟩ := exec_ringLocal acts run
  exact ⟨rest.others, rest.config, rest.enables, rest.timebase, rest.downTimeout, rest.period, rest.coalTimer,
    rest.globalEnables, rest.setup, rest.downRequests, tags⟩

end Sys2Proof.Laws

/-! PROOFS. The Ring Table's commands (R27 to R31, R38): how a command's row is taken, refused commands, START and
SNAPSHOT; with O16 to O18 and O23. -/

namespace Sys2Proof.Laws

open Sys2Proof.Machine

/-! ## Taking a command (R27; log 16) -/

section

variable {s : State} {r : RingId}

theorem exec_row (up : s.resetN = true) (r : RingId) (c : RingCommand) :
    exec (c.row r) s = .next (s.takeRingCommand r c) := by
  cases c <;> exact congrArg Host.Outcome.next (whileUp_of_up up _)

theorem port_ringCommand (s : State) (r : RingId) (c : RingCommand) : (s.ringCommand r c).port = s.port := by
  rcases moved_ringCommand_or_snapshot s r c with moved | snapshot
  · exact moved.port
  · rw [snapshot]
    rfl

/-- The command's effect and, where the port stands at its field, the answer to its byte. -/
theorem takeRingCommand_eq (s : State) (r : RingId) (c : RingCommand) :
    s.takeRingCommand r c = (s.ringCommand r c).modPort (fun _ => s.commandPort (.ring r .command)) := by
  have port := port_ringCommand s r c
  unfold State.takeRingCommand State.carriedBy State.commandPort State.portAck State.modPort
  split <;> rw [← port]

theorem ringCommand_of_refused {c : RingCommand} (refused : s.commandResult r c ≠ .accepted) :
    s.ringCommand r c =
      s.modRing r (fun x => { x with command := c.code, result := s.commandResult r c }) := by
  simp [State.ringCommand, refused]

theorem ringCommand_of_accepted {c : RingCommand} (accepted : s.commandResult r c = .accepted) :
    s.ringCommand r c = (s.commandEffect r c).modRing r
      (fun x => { x with command := c.code, result := .accepted }) := by
  simp [State.ringCommand, accepted]

/-- A ring's update is one of the table of rings. -/
theorem modRing_eq (s : State) (r : RingId) (f : Ring → Ring) :
    s.modRing r f = { s with rings := s.rings.set r (f (s.ring r)) } := rfl

theorem rings_of_ring (s t : State) (r : RingId) {x : Ring} (own : t.ring r = x)
    (others : ∀ p, p ≠ r → t.ring p = s.ring p) : t.rings = s.rings.set r x := by
  apply Vector.ext
  intro i hi
  rw [Vector.getElem_set]
  split
  · rename_i same
    subst same
    exact own
  · rename_i ne
    exact others ⟨i, hi⟩ (fun same => ne (congrArg Fin.val same).symm)

/-- What a refused command leaves (R28). -/
theorem exec_row_of_refused (up : s.resetN = true) {c : RingCommand} {v : CmdResult}
    (result : s.commandResult r c = v) (refused : v ≠ .accepted) :
    ∃ t, exec (c.row r) s = .next t ∧ t.ring r = { s.ring r with command := c.code, result := v } ∧
      (∀ p, p ≠ r → t.ring p = s.ring p) ∧
      t = { s with rings := t.rings, port := s.commandPort (.ring r .command) } := by
  subst result
  have run := exec_row up r c
  rw [takeRingCommand_eq, ringCommand_of_refused refused] at run
  exact ⟨_, run, by rw [ring_modPort, ring_modRing_self],
    fun p hp => by rw [ring_modPort, ring_modRing_other _ _ (Ne.symm hp)], rfl⟩

/-- What an accepted command writes (R27). -/
theorem exec_row_of_accepted (up : s.resetN = true) {c : RingCommand}
    (accepted : s.commandResult r c = .accepted) :
    ∃ t, exec (c.row r) s = .next t ∧
      t.ring r = { (s.commandEffect r c).ring r with command := c.code, result := .accepted } ∧
      (∀ p, p ≠ r → t.ring p = (s.commandEffect r c).ring p) ∧
      t = { s.commandEffect r c with rings := t.rings, port := s.commandPort (.ring r .command) } := by
  have run := exec_row up r c
  rw [takeRingCommand_eq, ringCommand_of_accepted accepted] at run
  generalize s.commandEffect r c = u at run
  exact ⟨_, run, by rw [ring_modPort, ring_modRing_self],
    fun p hp => by rw [ring_modPort, ring_modRing_other _ _ (Ne.symm hp)], rfl⟩

end

/-- Settles O16: table 2.5 gives each command's result by the ring's state. -/
theorem ringCommandsNeedTheirState : Obligations.RingCommandsNeedTheirState := by
  intro s r c up
  refine ⟨fun refused => exec_row_of_refused up ?_ nofun, fun allowed => ?_⟩
  · rcases refused with ⟨rfl, busy⟩ | ⟨rfl, other⟩ | ⟨rfl, other⟩ | ⟨rfl, other⟩
    · simp [State.commandResult, State.startResult, busy]
    · cases state : (s.ring r).state <;> simp_all [State.commandResult]
    · cases state : (s.ring r).state <;> simp_all [State.commandResult]
    · rcases other with state | state <;> simp [State.commandResult, state]
  · have accepted : s.commandResult r c = .accepted := by
      rcases allowed with ⟨rfl, state⟩ | ⟨rfl, state⟩ | ⟨rfl, state | state⟩ | rfl <;>
        simp [State.commandResult, *]
    obtain ⟨t, run, ring, -, -⟩ := exec_row_of_accepted up accepted
    exact ⟨t, run, by rw [ring], by rw [ring]⟩

/-! ## SNAPSHOT (R38, R168) -/

/-- Settles O23: a counter's sum is cut at its highest value, and a snapshot moves the counters to the bank. -/
theorem countersSaturateAndSnapshotsCopy : Obligations.CountersSaturateAndSnapshotsCopy := by
  refine ⟨fun v n => ?_, fun s r up => ?_⟩
  · unfold advanceCounter
    have := v.isLt
    rw [BitVec.toNat_ofNat, Nat.mod_eq_of_lt (by omega)]
    split <;> omega
  · obtain ⟨t, run, ring, others, rest⟩ := exec_row_of_accepted (c := .snapshot) up rfl
    refine ⟨t, run, ?_, fun p hp => ?_, rest⟩
    · rw [ring]
      exact congrArg (fun x : Ring => { x with command := 5, result := .accepted })
        (ring_modEvents_self s r RingEvents.snapshot)
    · exact (others p hp).trans (ring_modEvents_other s _ (Ne.symm hp))

/-! ## START (R29 to R31) -/

section

variable {s : State} {r : RingId}

theorem commandResult_start (s : State) (r : RingId) : s.commandResult r .start = s.startResult r := by
  unfold State.commandResult
  cases (s.ring r).state <;> rfl

theorem blocksNeeded_eq (c : RingConfig) : c.blocksNeeded = (c.slots + 63) / 64 := rfl

/-- The blocks taken are the lowest: a lower one that is not taken is held (R44). -/
theorem held_of_below {b d : Nat} (small : b < 64) (left : b ∉ s.blocksFor r) (mem : d ∈ s.blocksFor r)
    (below : b < d) : ∃ q, b ∈ (s.ring q).blocks := by
  by_contra free
  have free : b ∈ s.freeBlocks := (mem_freeBlocks s b).2 ⟨small, fun q held => free ⟨q, held⟩⟩
  have order := freeBlocks_ascend s
  rw [← List.take_append_drop (s.ring r).config.blocksNeeded s.freeBlocks] at free order
  rcases List.mem_append.1 free with taken | dropped
  · exact left taken
  · exact absurd ((List.pairwise_append.1 order).2.2 d mem b dropped) (by omega)

theorem sparseGet_stamps_startRing (s : State) (r : RingId) (i : Nat) :
    sparseGet Stamp.zero (s.startRing r).stamps i =
      if i / 64 ∈ s.blocksFor r then Stamp.zero else sparseGet Stamp.zero s.stamps i := by
  show sparseGet Stamp.zero (sparseClear (fun i => decide (i / 64 ∈ s.blocksFor r)) s.stamps) i = _
  split
  · rename_i own
    exact sparseGet_clear_self _ (decide_eq_true own)
  · rename_i other
    exact sparseGet_clear_other _ (decide_eq_false other)

/-- The starting state, by the configuration's values (R31, R98, R142). -/
theorem started_eq (x : Ring) (now : Time) (blocks : List Nat) : x.started now blocks = { x with
    state := .running
    t := 0
    occ := 0
    retained := false
    paced := if x.config.kind = .paced then .priming else .none
    blocks := blocks
    put := PutEngine.reset
    take := TakeEngine.reset
    align :=
      { AlignChecker.reset with
        state := if x.config.alignMode = .off then .off else .search
        searchTimer :=
          if x.config.alignMode = .auto then .some ⟨now, x.config.searchTimeout.toNat * 1000⟩ else .none }
    cadence :=
      { CadenceMonitor.reset with
        lateTimer := if x.config.cadenceMax = 0 then .none else .some ⟨now, x.config.cadenceMax.toNat⟩ }
    ageTimer := .none
    secondTimer := .some ⟨now, 1000000⟩ } := by
  have paced : (match x.config.kind with
      | .message => PacedState.none
      | .paced => .priming) = if x.config.kind = .paced then .priming else .none := by
    cases x.config.kind <;> rfl
  have align : x.config.alignAtStart now = { AlignChecker.reset with
      state := if x.config.alignMode = .off then .off else .search
      searchTimer :=
        if x.config.alignMode = .auto then .some ⟨now, x.config.searchTimeout.toNat * 1000⟩ else .none } := by
    unfold RingConfig.alignAtStart
    rw [searchTimerAt_eq]
    cases x.config.alignMode <;> rfl
  unfold Ring.started
  rw [align]
  simp only [← paced]
  rfl

end

/-- Settles O18: the blocks are the first of the free ones, and the rest is the starting state. -/
theorem startSetsTheRing : Obligations.StartSetsTheRing := by
  intro s r up result
  have accepted : s.commandResult r .start = .accepted := (commandResult_start s r).trans result
  obtain ⟨t, run, ring, others, rest⟩ := exec_row_of_accepted up accepted
  have ring : t.ring r = { (s.ring r).started s.timebase (s.blocksFor r) with
      command := 1, result := .accepted } := by
    rw [ring]
    exact congrArg (fun x : Ring => { x with command := 1, result := .accepted }) (ring_startRing_self s r)
  have blocks : (t.ring r).blocks = s.blocksFor r := by rw [ring]; rfl
  have stamps : t.stamps = (s.startRing r).stamps := by rw [rest]; rfl
  refine ⟨t, run, ?_, ?_, ?_, ?_, ?_, ?_, fun p hp => ?_, ?_⟩ <;> try rw [blocks]
  · exact (List.length_take_of_le (startAccepted_of_result result).stamps).trans (blocksNeeded_eq _)
  · exact blocksFor_ascend s r
  · exact fun b mem => mem_blocksFor mem
  · exact fun b small left ⟨d, mem, below⟩ => held_of_below small left mem below
  · intro i
    rw [stamps]
    exact sparseGet_stamps_startRing s r i
  · rw [ring, started_eq]
  · exact (others p hp).trans (ring_startRing_other s (Ne.symm hp))
  · rw [stamps]
    exact rest

/-! ### The checks of table 2.6 -/

/-- One check of a list in order, and the result that an if-chain takes from it. -/
theorem firstOf_cons {α : Type} {pass e v : α} {p p' : Prop} [Decidable p'] {l : List (Prop × α)} (same : p ↔ p')
    (rest : ¬p → firstOf pass l v) : firstOf pass ((p, e) :: l) (if p' then e else v) :=
  ⟨fun holds => if_pos (same.1 holds), fun fails => by
    rw [if_neg (fun holds => fails (same.2 holds))]
    exact rest fails⟩

theorem slotWords_pos (c : RingConfig) : 0 < c.slotWords := by
  unfold RingConfig.slotWords
  positivity

/-- Ranges that hold an address overlap if they share one. -/
theorem overlap_iff {b c : Nat × Nat} (hb : 0 < b.2) (hc : 0 < c.2) :
    overlap b c = true ↔ ∃ a, (b.1 ≤ a ∧ a < b.1 + b.2) ∧ c.1 ≤ a ∧ a < c.1 + c.2 := by
  unfold overlap
  rw [Bool.and_eq_true, decide_eq_true_eq, decide_eq_true_eq]
  constructor
  · exact fun h => ⟨max b.1 c.1, by omega, by omega⟩
  · rintro ⟨a, hb, hc⟩
    omega

theorem badSlotCount_iff (c : RingConfig) : c.badSlotCount = true ↔
    (c.kind = .message ∧ ¬(2 ≤ c.slots ∧ c.slots ≤ 1024)) ∨
      (c.kind = .paced ∧ ¬(4 ≤ c.slots ∧ c.slots ≤ 1024)) := by
  unfold RingConfig.badSlotCount
  cases c.kind <;> simp <;> omega

theorem range_pos {c : RingConfig} (some : 2 ≤ c.slots) {b : Nat × Nat} (h : b ∈ c.ranges) : 0 < b.2 := by
  have words := slotWords_pos c
  simp only [RingConfig.ranges, List.mem_cons, List.not_mem_nil, or_false] at h
  rcases h with rfl | rfl | rfl
  · exact Nat.mul_pos (by omega) words
  · exact Nat.mul_pos (by omega) words
  · exact Nat.mul_pos (by omega) words

/-- An address in the ranges of a ring lies in one of them. -/
theorem inRanges_iff (c : RingConfig) (a : Nat) :
    c.inRanges a ↔ ∃ b ∈ c.ranges, b.1 ≤ a ∧ a < b.1 + b.2 := by
  simp only [RingConfig.ranges, List.mem_cons, List.not_mem_nil, or_false, exists_eq_or_imp, exists_eq_left]
  rfl

theorem selfOverlap_iff {c : RingConfig} (some : 2 ≤ c.slots) : c.selfOverlap = true ↔
    ∃ a, (c.inPut a ∧ c.inTake a) ∨ (c.inPut a ∧ c.inStorage a) ∨ (c.inTake a ∧ c.inStorage a) := by
  have pos : ∀ b ∈ c.ranges, 0 < b.2 := fun b => range_pos some
  simp only [RingConfig.ranges, List.forall_mem_cons] at pos
  obtain ⟨put, take, storage, -⟩ := pos
  simp only [RingConfig.selfOverlap, Bool.or_eq_true, overlap_iff put take, overlap_iff put storage,
    overlap_iff take storage, exists_or, or_assoc]
  rfl

theorem crossOverlap_iff {c d : RingConfig} (hc : 2 ≤ c.slots) (hd : 2 ≤ d.slots) :
    c.crossOverlap d = true ↔ ∃ a, c.inRanges a ∧ d.inRanges a := by
  simp only [RingConfig.crossOverlap, List.any_eq_true, inRanges_iff]
  constructor
  · rintro ⟨b, hb, e, he, share⟩
    obtain ⟨a, inb, ine⟩ := (overlap_iff (range_pos hc hb) (range_pos hd he)).1 share
    exact ⟨a, ⟨b, hb, inb⟩, e, he, ine⟩
  · rintro ⟨a, ⟨b, hb, inb⟩, e, he, ine⟩
    exact ⟨b, hb, e, he, (overlap_iff (range_pos hc hb) (range_pos hd he)).2 ⟨a, inb, ine⟩⟩

theorem fitsSpace_iff (c : RingConfig) : (!c.ranges.all fitsSpace) = true ↔
    0xFFFFFFFF < c.putBase.toNat + 8 * c.slotWords - 1 ∨ 0xFFFFFFFF < c.takeBase.toNat + 8 * c.slotWords - 1 ∨
      0xFFFFFFFF < c.storageBase.toNat + 4 * c.slots * c.slotWords - 1 := by
  simp only [RingConfig.ranges, fitsSpace, RingConfig.putRange, RingConfig.takeRange, RingConfig.storageRange,
    RingConfig.apertureBytes, RingConfig.storageBytes, List.all_cons, List.all_nil, Bool.and_true,
    Bool.not_eq_true', Bool.and_eq_false_iff, decide_eq_false_iff_not]
  omega

theorem badTimers_iff (c : RingConfig) : c.badTimers = true ↔
    (c.kind = .paced ∧ c.parkTimeout ≠ 0) ∨ (c.kind = .message ∧ c.ageLimit ≠ 0) := by
  unfold RingConfig.badTimers
  cases c.kind <;> simp

theorem badMarks_iff (c : RingConfig) : c.badMarks = true ↔
    c.kind = .paced ∧ (¬(2 ≤ c.highMark.toNat ∧ c.highMark.toNat ≤ c.slots - 2) ∨
      ¬(1 ≤ c.centre.toNat ∧ c.centre.toNat ≤ c.highMark.toNat - 1)) := by
  unfold RingConfig.badMarks
  cases c.kind with
  | message => simp
  | paced =>
    simp only [true_and, Bool.not_eq_true', Bool.and_eq_false_iff, decide_eq_false_iff_not]
    omega

theorem badAlign_iff (c : RingConfig) : c.badAlign = true ↔
    (c.alignMode ≠ .off ∧ c.errorThreshold = 0) ∨ (c.alignMode = .auto ∧ c.searchTimeout = 0) := by
  unfold RingConfig.badAlign
  cases c.alignMode <;> simp

theorem badCadence_iff (c : RingConfig) : c.badCadence = true ↔
    c.cadenceMin ≠ 0 ∧ c.cadenceMax ≠ 0 ∧ c.cadenceMax < c.cadenceMin := by
  simp [RingConfig.badCadence, BitVec.lt_def, and_assoc]

/-- START's result is that of the first check of table 2.6 that fails (R29, R30). -/
theorem startResult_firstOf {s : State} (apart : RegionsSound s) (r : RingId) :
    firstOf .accepted (s.startChecks r) (s.startResult r) := by
  unfold State.startChecks State.startResult
  dsimp only
  refine firstOf_cons Iff.rfl fun idle => firstOf_cons Iff.rfl fun _ =>
    firstOf_cons (badSlotCount_iff _).symm fun count => firstOf_cons ?_ fun _ =>
    firstOf_cons (fitsSpace_iff _).symm fun _ => ?_
  · simp only [Nat.dvd_iff_mod_eq_zero]
    rfl
  have some : 2 ≤ (s.ring r).config.slots :=
    two_le_slots_of_badSlotCount (Bool.eq_false_of_not_eq_true fun bad => count ((badSlotCount_iff _).1 bad))
  refine firstOf_cons (selfOverlap_iff some).symm fun _ => firstOf_cons ?_ fun _ =>
    firstOf_cons (badTimers_iff _).symm fun _ => firstOf_cons (badMarks_iff _).symm fun _ =>
    firstOf_cons ?_ fun _ => firstOf_cons (badAlign_iff _).symm fun _ =>
    firstOf_cons (badCadence_iff _).symm fun _ => firstOf_cons Iff.rfl fun _ => rfl
  · rw [any_allRings_iff]
    refine exists_congr fun q => ?_
    rw [Bool.and_eq_true, Bool.and_eq_true, bne_iff_ne, active_iff, and_assoc]
    exact and_congr_right fun _ => and_congr_right fun active =>
      (crossOverlap_iff some (apart.1 q active).1).symm
  · rw [Bool.and_eq_true, decide_eq_true_eq]

/-- Settles O17: the checks of the model, in their order, are those of table 2.6. -/
theorem startValidatesInOrder : Obligations.StartValidatesInOrder := by
  intro s r apart up
  have first := startResult_firstOf apart r
  rw [← commandResult_start] at first
  by_cases accepted : s.commandResult r .start = .accepted
  · obtain ⟨t, run, ring, -, -⟩ := exec_row_of_accepted up accepted
    have result : (t.ring r).result = .accepted := by rw [ring]
    refine ⟨t, run, by rw [ring]; rfl, ?_, fun refused => absurd result refused⟩
    rw [result]
    exact accepted ▸ first
  · obtain ⟨t, run, ring, others, rest⟩ := exec_row_of_refused up rfl accepted
    have result : (t.ring r).result = s.commandResult r .start := by rw [ring]
    refine ⟨t, run, by rw [ring]; rfl, result ▸ first, fun _ => ⟨?_, others, rest⟩⟩
    rw [result]
    exact ring

end Sys2Proof.Laws

/-! PROOFS. What an event of a ring's engines does, as one relation that is built up update by update: the ring it
leaves, the answers it gives and the requests it hands down. -/

namespace Sys2Proof.Laws

open Sys2Proof.Machine

/-! ## The relation -/

/-- How far an event may reach beyond its ring, its answers and its requests: no further; to the interrupt line;
to the survey and the global flags too; or to the stamp entries and the free words as well. -/
inductive Scope where
  | exact
  | loud
  | seen
  | wide
deriving DecidableEq

/-- An event of ring `r` brings `s` to `t`: the ring to `x`, with these answers and these requests handed down. -/
structure Acts (k : Scope) (r : RingId) (s t : State) (x : Ring) (answers : List UpResponse)
    (issues : List Issue) : Prop where
  ring : t.ring r = x
  others : ∀ p, p ≠ r → t.ring p = s.ring p
  frame : t = { s.answered answers with
    rings := t.rings
    stamps := t.stamps
    survey := t.survey
    globalFlags := t.globalFlags
    driver := t.driver
    issueQueue := s.issueQueue ++ issues
    freeCount := t.freeCount }
  quiet : k ≠ .wide → t.stamps = s.stamps ∧ t.freeCount = s.freeCount
  unseen : k ≠ .wide → k ≠ .seen → t.survey = s.survey ∧ t.globalFlags = s.globalFlags
  still : k = .exact → t.driver = s.driver

theorem answered_nil (s : State) : s.answered [] = s := by
  simp [State.answered]

theorem answered_append (s : State) (a b : List UpResponse) :
    (s.answered a).answered b = s.answered (a ++ b) := by
  simp [State.answered, List.filter_filter, Bool.and_comm]

namespace Acts

variable {k : Scope} {r : RingId} {s t u : State} {x y : Ring} {a b : List UpResponse} {i j : List Issue}

protected theorem refl (k : Scope) (r : RingId) (s : State) : Acts k r s s (s.ring r) [] [] :=
  ⟨rfl, fun _ _ => rfl, by rw [answered_nil, List.append_nil], fun _ => ⟨rfl, rfl⟩, fun _ _ => ⟨rfl, rfl⟩, fun _ => rfl⟩

theorem trans (h : Acts k r s t x a i) (h' : Acts k r t u y b j) : Acts k r s u y (a ++ b) (i ++ j) := by
  refine ⟨h'.ring, fun p hp => (h'.others p hp).trans (h.others p hp), ?_, fun narrow => ?_, fun narrow blind => ?_,
    fun exact => (h'.still exact).trans (h.still exact)⟩
  · have frame := h'.frame
    rw [frame, h.frame, ← answered_append, ← List.append_assoc]
    rfl
  · obtain ⟨stamps, free⟩ := h.quiet narrow
    obtain ⟨stamps', free'⟩ := h'.quiet narrow
    exact ⟨stamps'.trans stamps, free'.trans free⟩
  · obtain ⟨survey, flags⟩ := h.unseen narrow blind
    obtain ⟨survey', flags'⟩ := h'.unseen narrow blind
    exact ⟨survey'.trans survey, flags'.trans flags⟩

theorem widen (h : Acts k r s t x a i) : Acts .wide r s t x a i :=
  ⟨h.ring, h.others, h.frame, fun narrow => absurd rfl narrow, fun narrow => absurd rfl narrow, nofun⟩

theorem louden (h : Acts .exact r s t x a i) : Acts .loud r s t x a i :=
  ⟨h.ring, h.others, h.frame, fun _ => h.quiet nofun, fun _ _ => h.unseen nofun nofun, nofun⟩

theorem expose (h : Acts .loud r s t x a i) : Acts .seen r s t x a i :=
  ⟨h.ring, h.others, h.frame, fun _ => h.quiet nofun, fun _ blind => absurd rfl blind, nofun⟩

/-- Where the ring, the answers and the requests are named otherwise. -/
theorem cast (h : Acts k r s t x a i) (ring : x = y) (answers : a = b) (issues : i = j) : Acts k r s t y b j := by
  subst ring answers issues
  exact h

/-! ### What the relation leaves -/

theorem timebase (h : Acts k r s t x a i) : t.timebase = s.timebase := by rw [h.frame]; rfl

theorem tags (h : Acts k r s t x a i) : t.tags = s.tags := by rw [h.frame]; rfl

theorem resetN (h : Acts k r s t x a i) : t.resetN = s.resetN := by rw [h.frame]; rfl

theorem issueQueue (h : Acts k r s t x a i) : t.issueQueue = s.issueQueue ++ i := by rw [h.frame]

theorem upResponses (h : Acts k r s t x a i) : t.upResponses = s.upResponses ++ a := by rw [h.frame]; rfl

theorem downstreamClear (h : Acts k r s t x a []) (p : RingId) : t.downstreamClear p = s.downstreamClear p :=
  downstreamClear_congr h.tags (by rw [h.issueQueue, List.append_nil]) p

/-- The whole state after an event that reaches the survey at most. -/
theorem eq_of_seen (h : Acts k r s t x a i) (narrow : k ≠ .wide) : t = { s.answered a with
    rings := t.rings
    survey := t.survey
    globalFlags := t.globalFlags
    driver := t.driver
    issueQueue := s.issueQueue ++ i } := by
  obtain ⟨stamps, free⟩ := h.quiet narrow
  have frame := h.frame
  rw [stamps, free] at frame
  exact frame

/-- The whole state after an event that reaches the interrupt line at most. -/
theorem eq_of_loud (h : Acts k r s t x a i) (narrow : k ≠ .wide) (blind : k ≠ .seen) :
    t = { s.answered a with
      rings := t.rings
      driver := t.driver
      issueQueue := s.issueQueue ++ i } := by
  obtain ⟨survey, flags⟩ := h.unseen narrow blind
  have frame := h.eq_of_seen narrow
  rw [survey, flags] at frame
  exact frame

/-- The whole state after an event that reaches no further than its ring. -/
theorem eq_of_exact (h : Acts .exact r s t x a i) : t = { s.answered a with
    rings := s.rings.set r x
    issueQueue := s.issueQueue ++ i } := by
  have rest := h.eq_of_loud nofun nofun
  rw [h.still rfl, rings_of_ring s t r h.ring h.others] at rest
  exact rest

/-! ### One more update -/

theorem modRing (h : Acts k r s t x a i) (f : Ring → Ring) : Acts k r s (t.modRing r f) (f x) a i :=
  ⟨by rw [ring_modRing_self, h.ring], fun p hp => (ring_modRing_other t f (Ne.symm hp)).trans (h.others p hp), by
    conv_lhs => rw [State.modRing, State.setRing, h.frame]
    rfl, h.quiet, h.unseen, h.still⟩

theorem modPut (h : Acts k r s t x a i) (f : PutEngine → PutEngine) :
    Acts k r s (t.modPut r f) { x with put := f x.put } a i := h.modRing (fun x => { x with put := f x.put })

theorem modTake (h : Acts k r s t x a i) (f : TakeEngine → TakeEngine) :
    Acts k r s (t.modTake r f) { x with take := f x.take } a i := h.modRing (fun x => { x with take := f x.take })

theorem modAlign (h : Acts k r s t x a i) (f : AlignChecker → AlignChecker) :
    Acts k r s (t.modAlign r f) { x with align := f x.align } a i :=
  h.modRing (fun x => { x with align := f x.align })

theorem modCadence (h : Acts k r s t x a i) (f : CadenceMonitor → CadenceMonitor) :
    Acts k r s (t.modCadence r f) { x with cadence := f x.cadence } a i :=
  h.modRing (fun x => { x with cadence := f x.cadence })

theorem respond (h : Acts k r s t x a i) (q : Requester) (v : UTag) (status : Status) (data : List Word) :
    Acts k r s (t.respond q v status data) x (a ++ [⟨q, v, status, data⟩]) i :=
  ⟨h.ring, h.others, by
    rw [respond_eq_answered, ← answered_append]
    conv_lhs => rw [h.frame]
    rfl, h.quiet, h.unseen, h.still⟩

theorem respondError (h : Acts k r s t x a i) (q : Requester) (v : UTag) :
    Acts k r s (t.respondError q v) x (a ++ [⟨q, v, .error, []⟩]) i := h.respond q v .error []

theorem respondFill (h : Acts k r s t x a i) (q : Requester) (v : UTag) (c : Nat) :
    Acts k r s (t.respondFill r q v c) x (a ++ [⟨q, v, .ok, List.replicate c x.config.fillWord⟩]) i := by
  have answered := h.respond q v .ok (List.replicate c (t.ring r).config.fillWord)
  rw [h.ring] at answered
  unfold State.respondFill
  rw [h.ring]
  exact answered

theorem handDown (h : Acts k r s t x a i) (d : Issue) : Acts k r s (t.handDown d) x a (i ++ [d]) :=
  ⟨h.ring, h.others, by
    conv_lhs => rw [State.handDown, h.frame]
    rw [← List.append_assoc]
    rfl, h.quiet, h.unseen, h.still⟩

theorem raise (h : Acts k r s t x a i) (loud : k ≠ .exact) (f : RingFlag) : Acts k r s (t.raise r f)
    { x with events := { x.events with flags := x.events.flags ||| f.mask } } a i :=
  ⟨by rw [ring_raise_self, h.ring], fun p hp => ((inner_raise t r f).others p hp).trans (h.others p hp), by
    have ringed := (h.modRing
      (fun x => { x with events := { x.events with flags := x.events.flags ||| f.mask } })).frame
    rw [show t.raise r f = { t.modRing r (fun x => { x with events :=
      { x.events with flags := x.events.flags ||| f.mask } }) with driver := (t.raise r f).driver } from rfl]
    conv_lhs => rw [ringed], h.quiet, h.unseen, fun exact => absurd exact loud⟩

theorem bump (h : Acts k r s t x a i) (c : Counter) (n : Nat) : Acts k r s (t.bump r c n)
    { x with events := { x.events with
      counters := x.events.counters.set c.index (advanceCounter x.events.counters[c.index] n) } } a i :=
  h.modRing (fun x => { x with events := { x.events with
    counters := x.events.counters.set c.index (advanceCounter x.events.counters[c.index] n) } })

/-- A flag and a counter reported together. -/
theorem report (h : Acts k r s t x a i) (loud : k ≠ .exact) (f : RingFlag) (c : Counter) (n : Nat) :
    Acts k r s ((t.raise r f).bump r c n) { x with events := x.events.report f.mask c.index n } a i :=
  (h.raise loud f).bump c n

theorem recordPut (h : Acts k r s t x a i) (loud : k ≠ .exact) (c : Cause) (q : Requester) (offset : Nat) :
    Acts k r s (t.recordPut r c q offset)
      { x with
        put := { x.put with refusal := ⟨some c, q, offset, s.timebase, true⟩ }
        events := x.events.report c.putBits.1 c.putBits.2 1 } a i := by
  have reported := ((h.modPut (fun p => { p with refusal := ⟨some c, q, offset, t.timebase, true⟩ })).report loud
    c.putFlag c.putCounter 1)
  rw [h.timebase] at reported
  have bits : c.putFlag.mask = c.putBits.1 ∧ c.putCounter.index = c.putBits.2 := by cases c <;> exact ⟨rfl, rfl⟩
  rw [bits.1, bits.2] at reported
  unfold State.recordPut
  rw [h.timebase]
  exact reported

/-- A put refusal: the record, the report and the ERROR (R71, R72). -/
theorem refusePut (h : Acts k r s t x a i) (loud : k ≠ .exact) (q : PutReq) (c : Cause) :
    Acts k r s (t.refusePut r q c) (x.refusedWith q c s.timebase)
      (a ++ [⟨q.requester, q.tag, .error, []⟩]) i :=
  (h.recordPut loud c q.requester q.offset).respondError q.requester q.tag

theorem recordTake (h : Acts k r s t x a i) (loud : k ≠ .exact) (c : Cause) (q : Requester) (offset : Nat) :
    Acts k r s (t.recordTake r c q offset)
      { x with
        take := { x.take with refusal := ⟨some c, q, offset, s.timebase, true⟩ }
        events := x.events.report c.takeFlag.mask c.takeCounter.index 1 } a i := by
  have reported := ((h.modTake (fun p => { p with refusal := ⟨some c, q, offset, t.timebase, true⟩ })).report loud
    c.takeFlag c.takeCounter 1)
  rw [h.timebase] at reported
  unfold State.recordTake
  rw [h.timebase]
  exact reported

end Acts

end Sys2Proof.Laws

/-! PROOFS. The Ring Table's test at the end of an event (R33, R35, R36), and what an accepted request makes of
its entry; with O21 and O34. -/

namespace Sys2Proof.Laws

open Sys2Proof.Machine

/-! ## The survey's loss of its source (R158) -/

theorem busy_iff (v : Survey) : v.busy = true ↔ v.state ≠ .idle := by
  unfold Survey.busy
  split <;> simp_all

theorem sourceLost_surveySourceLoss (s : State) (r : RingId) : SourceLost s (s.surveySourceLoss r) r := by
  have condition : (s.survey.busy = true ∧ s.survey.setup.source = r) ↔
      (s.survey.state ≠ .idle ∧ s.survey.setup.source = r) := and_congr_left' (busy_iff _)
  unfold SourceLost State.surveySourceLoss
  split
  next lost => exact ⟨fun _ => ⟨rfl, rfl⟩, fun not => absurd (condition.1 lost) not⟩
  next kept => exact ⟨fun lost => absurd (condition.2 lost) kept, fun _ => ⟨rfl, rfl⟩⟩

/-- The loss is a matter of the survey and the global flags. -/
theorem sourceLost_congr {s t s' t' : State} {r : RingId} (h : SourceLost s t r) (survey : s'.survey = s.survey)
    (flags : s'.globalFlags = s.globalFlags) (survey' : t'.survey = t.survey)
    (flags' : t'.globalFlags = t.globalFlags) : SourceLost s' t' r := by
  unfold SourceLost
  rw [survey, flags, survey', flags']
  exact h

theorem surveySourceLoss_rest (s : State) (r : RingId) : s.surveySourceLoss r = { s with
    survey := (s.surveySourceLoss r).survey
    globalFlags := (s.surveySourceLoss r).globalFlags
    driver := (s.surveySourceLoss r).driver } := by
  unfold State.surveySourceLoss
  split <;> rfl

/-- An update of the survey, the global flags and the interrupt line. -/
theorem Acts.watched {k : Scope} {r : RingId} {s t : State} {x : Ring} {a : List UpResponse} {i : List Issue}
    (h : Acts k r s t x a i) (reach : k = .seen ∨ k = .wide) (survey : Survey) (flags : BitVec 5)
    (driver : Driver) :
    Acts k r s { t with survey := survey, globalFlags := flags, driver := driver } x a i where
  ring := h.ring
  others := h.others
  frame := by
    conv_lhs => rw [h.frame]
  quiet := h.quiet
  unseen narrow blind := (reach.elim blind narrow).elim
  still exact := by rcases reach with rfl | rfl <;> cases exact

theorem Acts.surveySourceLoss {k : Scope} {r : RingId} {s t : State} {x : Ring} {a : List UpResponse}
    {i : List Issue} (h : Acts k r s t x a i) (reach : k = .seen ∨ k = .wide) :
    Acts k r s (t.surveySourceLoss r) x a i := by
  rw [surveySourceLoss_rest]
  exact h.watched reach _ _ _

/-! ## The entry to IDLE (R36) -/

theorem Acts.enterIdle {r : RingId} {s t : State} {x : Ring} {a : List UpResponse} {i : List Issue}
    (h : Acts .seen r s t x a i) : Acts .seen r s (t.enterIdle r) x.atIdle a i := by
  have entered := ((h.modRing Ring.entered).surveySourceLoss (.inl rfl)).raise nofun .ringIdle
  exact entered.cast rfl rfl rfl

theorem sourceLost_enterIdle (s : State) (r : RingId) : SourceLost s (s.enterIdle r) r :=
  sourceLost_congr (sourceLost_surveySourceLoss (s.modRing r Ring.entered) r) rfl rfl rfl rfl

/-- The ring, with its requests below as `clear` says, meets the condition of its entry to IDLE (R33, R35). -/
def enters (x : Ring) (clear : Prop) : Prop :=
  clear ∧ (x.state = .aborting ∨
    (x.state = .draining ∧ x.put.phase = .none ∧ x.occ = 0 ∧ x.take.record.present = false ∧
      x.put.hold = [] ∧ x.take.hold = []))

theorem idleCondition_iff_enters (s : State) (r : RingId) :
    s.idleCondition r = true ↔ enters (s.ring r) (s.noDownstream r) := by
  rw [idleCondition_iff]
  unfold State.drained enters
  constructor
  · rintro (⟨state, phase, occ, absent, hold, reads, clear⟩ | ⟨state, clear⟩)
    · exact ⟨clear, .inr ⟨state, phase, occ, absent, hold, reads⟩⟩
    · exact ⟨clear, .inl state⟩
  · rintro ⟨clear, state | ⟨state, phase, occ, absent, hold, reads⟩⟩
    · exact .inr ⟨state, clear⟩
    · exact .inl ⟨state, phase, occ, absent, hold, reads, clear⟩

theorem settle_of_not {s : State} {r : RingId} (h : s.idleCondition r = false) : s.settle r = s := by
  simp [State.settle, h]

theorem settle_of {s : State} {r : RingId} (h : s.idleCondition r = true) : s.settle r = s.enterIdle r := by
  simp [State.settle, h]

namespace Acts

variable {k : Scope} {r : RingId} {s t : State} {x : Ring} {a : List UpResponse} {i : List Issue}

theorem noDownstream_iff (h : Acts k r s t x a []) : t.noDownstream r ↔ s.noDownstream r := by
  rw [← downstreamClear_iff, ← downstreamClear_iff, h.downstreamClear]

theorem idleCondition_iff (h : Acts k r s t x a []) :
    t.idleCondition r = true ↔ enters x (s.noDownstream r) := by
  rw [idleCondition_iff_enters, h.ring]
  unfold enters
  rw [h.noDownstream_iff]

/-- The event leaves its condition as it was, where it leaves the fields that the condition reads. -/
theorem idleCondition_of_fields (h : Acts k r s t x a []) (before : s.idleCondition r = false)
    (state : x.state = (s.ring r).state) (phase : x.put.phase = (s.ring r).put.phase) (occ : x.occ = (s.ring r).occ)
    (present : x.take.record.present = (s.ring r).take.record.present)
    (hold : x.put.hold = (s.ring r).put.hold) (reads : x.take.hold = (s.ring r).take.hold) :
    t.idleCondition r = false := by
  rw [← Bool.not_eq_true, h.idleCondition_iff]
  rw [← Bool.not_eq_true, idleCondition_iff_enters] at before
  unfold enters at before ⊢
  rwa [state, phase, occ, present, hold, reads]

/-- A request of the ring has been handed down, and so the ring does not enter IDLE. -/
theorem idleCondition_of_issue (h : Acts k r s t x a i) {d : Issue} (mem : d ∈ i)
    (own : d.owner.ofRing r = true) : t.idleCondition r = false := by
  rw [← Bool.not_eq_true, idleCondition_iff_enters]
  rintro ⟨⟨-, waiting⟩, -⟩
  have not := waiting d (by rw [h.issueQueue]; exact List.mem_append_right _ mem)
  rw [own] at not
  exact Bool.noConfusion not

theorem idleCondition_of_state (h : Acts k r s t x a i) (state : x.state = .idle ∨ x.state = .running) :
    t.idleCondition r = false :=
  Laws.idleCondition_of_state (by rwa [h.ring])

/-- The Ring Table's test, where the condition does not hold. -/
theorem settle_stays (h : Acts k r s t x a i) (stays : t.idleCondition r = false) :
    Acts k r s (t.settle r) x a i := by
  rwa [settle_of_not stays]

/-- The Ring Table's test, where the condition holds. -/
theorem settle_enters (h : Acts .seen r s t x a i) (meets : t.idleCondition r = true) :
    Acts .seen r s (t.settle r) x.atIdle a i := by
  rw [settle_of meets]
  exact h.enterIdle

theorem sourceLost_settle (h : Acts .loud r s t x a i) (meets : t.idleCondition r = true) :
    SourceLost s (t.settle r) r := by
  obtain ⟨survey, flags⟩ := h.unseen nofun nofun
  rw [settle_of meets]
  exact sourceLost_congr (sourceLost_enterIdle t r) survey.symm flags.symm rfl rfl

/-! ### Accepted requests -/

/-- A request answered in the step that accepts it: its entry comes and goes (R2). -/
theorem of_request {q : UpRequest} (taken : s.takesIn q) {status : Status} {data : List Word}
    (h : Acts k r (s.enterOutstanding q) t x [⟨q.requester, q.tag, status, data⟩] []) :
    Acts k r { s with upResponses := s.upResponses ++ [⟨q.requester, q.tag, status, data⟩] } t x [] [] := by
  have frame := h.frame
  rw [← respond_eq_answered, respond_enterOutstanding taken, List.append_nil] at frame
  exact ⟨h.ring, h.others, by rw [answered_nil, List.append_nil]; exact frame, h.quiet, h.unseen, h.still⟩

end Acts

/-! ## The obligations -/

/-- Settles O21: the command is the Ring Table's test, whose condition is that of R33 and R35. -/
theorem entryToIdleReturnsTheBlocks : Obligations.EntryToIdleReturnsTheBlocks := by
  intro s r up
  have run : exec (.entryToIdle r) s = .next (s.settle r) := congrArg Host.Outcome.next (whileUp_of_up up _)
  rw [run, ← idleCondition_iff, Bool.not_eq_true]
  refine ⟨fun meets => ?_, fun stays => by rw [settle_of_not stays]⟩
  have entered := (Acts.refl .loud r s).expose.settle_enters meets
  have frame := entered.eq_of_seen nofun
  rw [answered_nil, List.append_nil] at frame
  exact ⟨_, rfl, entered.ring, (Acts.refl .loud r s).sourceLost_settle meets, entered.others, frame⟩

theorem timerDue_some (now : Time) (timer : Timer) : timerDue now (some timer) = timer.due now := rfl

/-- Settles O34: where the timer is due the first event is the bypass, the second a change of two fields. -/
theorem searchTimerAndSecondBoundary : Obligations.SearchTimerAndSecondBoundary := by
  refine ⟨fun s r timer up armed => ?_, fun s r timer up armed => ?_⟩
  · have run : exec (.searchTimerExpiry r) s = .next (s.searchTimerExpiry r) :=
      congrArg Host.Outcome.next (whileUp_of_up up _)
    rw [run]
    refine ⟨fun due searching => ?_, fun early => ?_⟩
    · have bypass : s.searchTimerExpiry r = s.alignBypass r :=
        if_pos (by simp [armed, timerDue_some, due, searching])
      have acts := ((Acts.refl .loud r s).modAlign
        (fun a => { a with state := .bypassed, searchTimer := .none })).raise nofun .alignBypassed
      have frame := acts.eq_of_loud nofun nofun
      rw [answered_nil, List.append_nil] at frame
      rw [bypass]
      exact ⟨_, rfl, acts.ring, acts.others, frame⟩
    · exact congrArg Host.Outcome.next (if_neg (by simp [armed, timerDue_some, early]))
  · have run : exec (.oneSecondBoundary r) s = .next (s.secondBoundary r) :=
      congrArg Host.Outcome.next (whileUp_of_up up _)
    rw [run]
    unfold State.secondBoundary
    rw [armed]
    refine ⟨fun due => ?_, fun early => by simp [early]⟩
    have serving : (s.ring r).state.serving = true ↔
        (s.ring r).state = .running ∨ (s.ring r).state = .draining := by
      cases (s.ring r).state <;> simp [RingState.serving]
    simp only [due, if_true, modRing_eq, Ring.atBoundary, serving]
    rfl

end Sys2Proof.Laws

/-! PROOFS. The Put Engine's judging (R52 to R61, R65): what each of its tests says of a ring, and what each
verdict makes of it. -/

namespace Sys2Proof.Laws

open Sys2Proof.Machine

/-! ## The tests -/

/-- U is the length and the trailer (R49). -/
theorem lastOf_eq (c : RingConfig) (h : Word) : c.lastOf h = (headerLength h).toNat + c.trailer := by
  unfold RingConfig.lastOf RingConfig.trailer
  cases c.checkMode <;> rfl

theorem lastUsed_eq (c : RingConfig) (h : Word) : c.lastUsed (headerLength h) = c.lastOf h :=
  (lastOf_eq c h).symm

theorem hasRoom_iff (x : Ring) : x.hasRoom = true ↔ x.roomFor := by
  unfold Ring.hasRoom Ring.roomFor bit
  cases x.config.kind <;> simp

theorem generationHeld_eq_false_iff (p : PutEngine) : p.generationHeld = false ↔ p.generationClear := by
  simp [PutEngine.generationHeld, PutEngine.generationClear, PutEngine.nextGeneration]

theorem generationHeld_iff (p : PutEngine) : p.generationHeld = true ↔ ¬p.generationClear := by
  rw [← generationHeld_eq_false_iff, Bool.not_eq_false]

theorem headerCause_eq (x : Ring) (h : Word) (ws : List Word) : x.headerCause h (h :: ws).length =
    if x.config.slotWords < 1 + x.config.lastOf h then some .overlength
    else if x.state = .draining then some .draining
    else if x.config.lastOf h < ws.length then some .outsideSlot
    else none := by
  simp only [Ring.headerCause, lastOf_eq, List.length_cons, Nat.add_sub_cancel, Nat.add_assoc]

theorem headerCause_of_fits {x : Ring} {h : Word} {ws : List Word} (fits : x.config.burstFits h ws)
    (state : x.state ≠ .draining) : x.headerCause h (h :: ws).length = none := by
  obtain ⟨inside, behind⟩ := fits
  rw [headerCause_eq, if_neg (by omega), if_neg state, if_neg (by omega)]

/-! ## The verdicts -/

section

variable {s : State} {r : RingId} {p : PutReq} {h : Word} {ws : List Word}

theorem judgePut_words (body : p.body = .words ws) : s.judgePut r p = s.judgeBurst r p ws := by
  simp [State.judgePut, body]

theorem judgePut_abandon (body : p.body = .abandon) : s.judgePut r p = (s.judgeAbandon r p, none) := by
  simp [State.judgePut, body]

theorem judgeBurst_header_refused {c : Cause} (start : p.offset = 0)
    (cause : (s.ring r).headerCause (ws.headD 0) ws.length = some c) :
    s.judgeBurst r p ws = (s.refusePut r p c, none) := by
  simp only [State.judgeBurst, start, if_true, cause]

theorem judgeBurst_header_passed (start : p.offset = 0)
    (cause : (s.ring r).headerCause (ws.headD 0) ws.length = none) :
    s.judgeBurst r p ws = s.judgeHeaderPassed r p ws := by
  simp only [State.judgeBurst, start, if_true, cause]

theorem judgeBurst_words_refused {c : Cause} (above : p.offset ≠ 0)
    (cause : (s.ring r).put.wordsCause p.offset ws.length = some c) :
    s.judgeBurst r p ws = (s.refusePut r p c, none) := by
  simp only [State.judgeBurst, above, if_false, cause]

theorem judgeBurst_words_passed (above : p.offset ≠ 0)
    (cause : (s.ring r).put.wordsCause p.offset ws.length = none) :
    s.judgeBurst r p ws = (s.acceptWords r p ws, none) := by
  simp only [State.judgeBurst, above, if_false, cause]

theorem judgeHeaderPassed_opens (closed : (s.ring r).put.phase ≠ .filling) (room : (s.ring r).roomFor)
    (clear : (s.ring r).put.generationClear) :
    s.judgeHeaderPassed r p (h :: ws) = ((s.takeHeader r h true).acceptWords r p (h :: ws), none) := by
  simp only [State.judgeHeaderPassed, closed, if_false, (hasRoom_iff _).2 room, List.headD_cons,
    (generationHeld_eq_false_iff _).2 clear, Bool.not_true, Bool.false_eq_true]

theorem judgeHeaderPassed_restarts (filling : (s.ring r).put.phase = .filling)
    (clear : (s.ring r).put.generationClear) :
    s.judgeHeaderPassed r p (h :: ws) =
      (((s.restartTear r p.requester).takeHeader r h false).acceptWords r p (h :: ws), none) := by
  simp only [State.judgeHeaderPassed, filling, if_true, List.headD_cons,
    (generationHeld_eq_false_iff _).2 clear, Bool.false_eq_true, if_false]

theorem judgeHeaderPassed_waits
    (place : ((s.ring r).put.phase ≠ .filling ∧ (s.ring r).roomFor) ∨ (s.ring r).put.phase = .filling)
    (held : ¬(s.ring r).put.generationClear) :
    s.judgeHeaderPassed r p ws = (s, some .waiting) := by
  rcases place with ⟨closed, room⟩ | filling
  · simp only [State.judgeHeaderPassed, closed, if_false, (hasRoom_iff _).2 room, Bool.not_true,
      Bool.false_eq_true, (generationHeld_iff _).2 held, if_true]
  · simp only [State.judgeHeaderPassed, filling, if_true, (generationHeld_iff _).2 held]

theorem judgeHeaderPassed_noRoom (closed : (s.ring r).put.phase ≠ .filling) (full : ¬(s.ring r).roomFor) :
    s.judgeHeaderPassed r p ws = s.judgeNoRoom r p := by
  have none : (s.ring r).hasRoom = false := by rw [← Bool.not_eq_true, hasRoom_iff]; exact full
  simp only [State.judgeHeaderPassed, closed, if_false, none, Bool.not_false, if_true]

theorem judgeNoRoom_absent (absent : (s.ring r).cadence.absent = true) :
    s.judgeNoRoom r p = (s.refusePut r p .consumerAbsent, none) := by
  simp [State.judgeNoRoom, absent]

theorem judgeNoRoom_full (there : (s.ring r).cadence.absent = false)
    (timeout : (s.ring r).config.parkTimeout = 0) :
    s.judgeNoRoom r p = (s.refusePut r p .ringFull, none) := by
  simp [State.judgeNoRoom, there, timeout]

theorem judgeNoRoom_parks (there : (s.ring r).cadence.absent = false)
    (timeout : (s.ring r).config.parkTimeout ≠ 0) :
    s.judgeNoRoom r p =
      (s, some (.parked ⟨s.timebase, (s.ring r).config.parkTimeout.toNat⟩)) := by
  simpa [State.judgeNoRoom, there, armTimer] using timeout

theorem judgeAbandon_torn (filling : (s.ring r).put.phase = .filling) : s.judgeAbandon r p =
    ((s.modPut r PutEngine.torned).recordPut r .abandoned p.requester p.offset).respond p.requester p.tag .ok
      [] := by
  simp only [State.judgeAbandon, filling, if_true]

theorem judgeAbandon_nothing (closed : (s.ring r).put.phase ≠ .filling) :
    s.judgeAbandon r p = s.respond p.requester p.tag .ok [] := by
  simp only [State.judgeAbandon, closed, if_false]

/-! ### The queue (R52) -/

theorem putLoop_empty (hold : (s.ring r).put.hold = []) (n : Nat) : State.putLoop n s r = s := by
  cases n with
  | zero => rfl
  | succ n => simp only [State.putLoop, hold]

theorem putLoop_left {t : State} {rest : List PutReq} (hold : (s.ring r).put.hold = p :: rest)
    (free : (s.ring r).put.phase ≠ .committing) (judged : s.judgePut r p = (t, none)) (n : Nat) :
    State.putLoop (n + 1) s r = State.putLoop n (t.modPut r (fun p => { p with hold := p.hold.tail })) r := by
  simp only [State.putLoop, hold, free, if_false, judged]

theorem putLoop_held {t : State} {rest : List PutReq} {head : HeadHold}
    (hold : (s.ring r).put.hold = p :: rest) (free : (s.ring r).put.phase ≠ .committing)
    (judged : s.judgePut r p = (t, some head)) (n : Nat) :
    State.putLoop (n + 1) s r = t.modPut r (fun p => { p with head := head }) := by
  simp only [State.putLoop, hold, free, if_false, judged]

end

/-- The request has joined the tail of the queue, whose head is judged next. -/
def putQueued (s : State) (r : RingId) (p : PutReq) : State :=
  (s.modPut r (fun e => { e with hold := e.hold ++ [p] })).modPut r (fun e => { e with head := .clear })

/-- The ring with `p` alone in its put hold queue. -/
def withPut (x : Ring) (p : PutReq) : Ring := { x with put := { x.put with hold := [p], head := .clear } }

section

variable {s t : State} {r : RingId} {p : PutReq}

theorem acts_putQueued (hold : (s.ring r).put.hold = []) :
    Acts .exact r s (putQueued s r p) (withPut (s.ring r) p) [] [] := by
  have queued := ((Acts.refl .exact r s).modPut (fun e => { e with hold := e.hold ++ [p] })).modPut
    (fun e => { e with head := .clear })
  refine queued.cast ?_ rfl rfl
  unfold withPut
  rw [hold]
  rfl

theorem ring_putQueued (hold : (s.ring r).put.hold = []) : (putQueued s r p).ring r = withPut (s.ring r) p :=
  (acts_putQueued hold).ring

theorem deliverPut_free (hold : (s.ring r).put.hold = []) (free : (s.ring r).put.phase ≠ .committing) :
    s.deliverPut r p = State.putLoop 1 (putQueued s r p) r := by
  have queued : ((s.modPut r (fun e => { e with hold := e.hold ++ [p] })).ring r).put.hold = [p] := by
    rw [ring_modPut_self]
    simp [hold]
  have judged : (s.modPut r (fun e => { e with hold := e.hold ++ [p] })).judgePutQueue r =
      State.putLoop 1 (putQueued s r p) r := by
    unfold State.judgePutQueue putQueued
    rw [queued]
    rfl
  rw [← judged]
  exact (if_neg (by simp [hold, Config.holdDepth])).trans (if_pos (by simp [hold, free]))

/-- A request judged at once that leaves the queue. -/
theorem deliverPut_left (hold : (s.ring r).put.hold = []) (free : (s.ring r).put.phase ≠ .committing)
    (judged : (putQueued s r p).judgePut r p = (t, none)) :
    s.deliverPut r p = t.modPut r (fun p => { p with hold := p.hold.tail }) := by
  rw [deliverPut_free hold free]
  refine putLoop_left (rest := []) ?_ ?_ judged 0 <;> rw [ring_putQueued hold]
  · rfl
  · exact free

/-- A request judged at once that stays at the head. -/
theorem deliverPut_held {head : HeadHold} (hold : (s.ring r).put.hold = [])
    (free : (s.ring r).put.phase ≠ .committing)
    (judged : (putQueued s r p).judgePut r p = (t, some head)) :
    s.deliverPut r p = t.modPut r (fun p => { p with head := head }) := by
  rw [deliverPut_free hold free]
  refine putLoop_held (rest := []) ?_ ?_ judged 0 <;> rw [ring_putQueued hold]
  · rfl
  · exact free

/-- A request behind a held head or a commit (R52). -/
theorem deliverPut_queues (room : (s.ring r).put.hold.length < 4)
    (behind : (s.ring r).put.hold ≠ [] ∨ (s.ring r).put.phase = .committing) :
    s.deliverPut r p = s.modPut r (fun e => { e with hold := e.hold ++ [p] }) := by
  refine (if_neg (Nat.not_le.2 room)).trans (if_neg ?_)
  rcases behind with held | committing
  · simp [held]
  · simp [committing]

theorem deliverPut_full (full : 4 ≤ (s.ring r).put.hold.length) :
    s.deliverPut r p = s.refusePut r p .queueFull := if_pos full

end

/-! ## What the effects make of the ring -/

/-- The ring once a take, where one is present, has been revoked (R120). -/
def revoked (x : Ring) : Ring :=
  if x.take.record.present then { x with take := x.take.ended, events := x.events.report 0x1000#18 13 1 }
  else x

/-- The ring once a take in the way of a header has been revoked (R133). -/
def cleared (x : Ring) : Ring :=
  { x with
    take := if x.takeInTheWay then x.take.ended else x.take
    events := if x.takeInTheWay then x.events.report 0x1000#18 13 1 else x.events }

theorem takeInTheWay_message {x : Ring} (message : x.config.kind = .message) : x.takeInTheWay = false :=
  decide_eq_false fun way => nomatch (message.symm.trans way.1 : Kind.message = .paced)

theorem cleared_message {x : Ring} (message : x.config.kind = .message) : cleared x = x := by
  unfold cleared
  rw [takeInTheWay_message message]
  rfl

theorem collides_eq (x : Ring) : x.collides = x.takeInTheWay := by
  simp [Ring.collides, Ring.takeInTheWay, Ring.openPosition, Bool.and_assoc, Bool.beq_eq_decide_eq]

namespace Acts

variable {k : Scope} {r : RingId} {s t : State} {x : Ring} {a : List UpResponse} {i : List Issue}

theorem acceptWords (h : Acts k r s t x a i) (p : PutReq) (ws : List Word) :
    Acts k r s (t.acceptWords r p ws) { x with put := x.putAccepted p ws } a (i ++ [x.putIssue r p ws]) := by
  have accepted := (h.modRing (fun y => { y with put := x.putAccepted p ws })).handDown (x.putIssue r p ws)
  unfold State.acceptWords
  rw [h.ring]
  exact accepted

theorem clearTake (h : Acts k r s t x a i) : Acts k r s (t.clearTake r) { x with take := x.take.ended } a i :=
  h.modTake (fun t => { t with record := t.record.cleared })

theorem revokeTake (h : Acts k r s t x a i) (loud : k ≠ .exact) : Acts k r s (t.revokeTake r) (revoked x) a i := by
  unfold State.revokeTake revoked
  rw [h.ring]
  split
  · exact h.clearTake.report loud .takeRevoked .revoked 1
  · exact h

theorem collide (h : Acts k r s t x a i) (loud : k ≠ .exact ∨ x.takeInTheWay = false) :
    Acts k r s (t.collide r) (cleared x) a i := by
  unfold State.collide
  rw [h.ring, collides_eq]
  split
  next inTheWay =>
    have loud : k ≠ .exact := loud.resolve_right (by rw [inTheWay]; exact nofun)
    refine (h.revokeTake loud).cast ?_ rfl rfl
    have present : x.take.record.present = true := by
      simp only [Ring.takeInTheWay, decide_eq_true_eq] at inTheWay
      exact inTheWay.2.1
    unfold revoked cleared
    rw [present, inTheWay]
    rfl
  next free =>
    refine h.cast ?_ rfl rfl
    unfold cleared
    rw [Bool.eq_false_iff.2 free]
    rfl

theorem openFresh (h : Acts k r s t x a i) (loud : k ≠ .exact ∨ x.takeInTheWay = false) (header : Word) :
    Acts k r s (t.takeHeader r header true) { cleared x with put := x.putOpened header } a i :=
  (h.collide loud).modRing (fun x => { x with put := x.putOpened header })

theorem openAgain (h : Acts k r s t x a i) (header : Word) :
    Acts k r s (t.takeHeader r header false) { x with put := x.putOpened header } a i :=
  h.modRing (fun x => { x with put := x.putOpened header })

theorem restartTear (h : Acts k r s t x a i) (loud : k ≠ .exact) (q : Requester) :
    Acts k r s (t.restartTear r q)
      { x with
        put := { x.put.torned with refusal := ⟨some .restarted, q, 0, s.timebase, true⟩ }
        events := x.events.report 0x80#18 5 1 } a i :=
  (h.modPut PutEngine.torned).recordPut loud .restarted q 0

end Acts

/-! ## The words of an accepted burst -/

theorem putCrcAfter_eq (x : Ring) (k : Nat) (ws : List Word) : x.putCrcAfter k ws =
    if x.config.checkMode = .off then x.put.crc
    else crcWords x.put.crc (ws.take (x.put.length.toNat + 1 - k)) := by
  unfold Ring.putCrcAfter
  cases x.config.checkMode <;> rfl

theorem trailerDiffers_eq (x : Ring) (k : Nat) (ws : List Word) : x.trailerDiffers k ws =
    decide (x.config.checkMode = .verify ∧ x.put.carriesU k ws.length = true ∧
      (ws.getD (x.put.lastUsed - k) 0).extractLsb' 0 16 ≠ x.putCrcAfter k ws) := by
  unfold Ring.trailerDiffers
  cases mode : x.config.checkMode with
  | off => simp
  | generate => simp
  | verify =>
    cases x.put.carriesU k ws.length <;> simp [trailerCheck, bne, Bool.beq_eq_decide_eq]

theorem putDataOut_eq (x : Ring) (k : Nat) (ws : List Word) : x.putDataOut k ws =
    if x.config.checkMode = .generate ∧ x.put.carriesU k ws.length = true then
      ws.set (x.put.lastUsed - k) ((x.putCrcAfter k ws).zeroExtend 32)
    else ws := by
  unfold Ring.putDataOut
  cases x.config.checkMode <;> simp

section

variable (x : Ring) (q : Requester) (u : UTag) (h : Word) (ws : List Word)

/-- A header burst that fits reaches U where it ends there. -/
theorem carriesU_header (fits : ws.length ≤ x.config.lastOf h) :
    (x.putOpened h).carriesU 0 (h :: ws).length = decide (ws.length = x.config.lastOf h) := by
  unfold PutEngine.carriesU Ring.putOpened
  rw [lastUsed_eq, ← Bool.decide_and]
  apply decide_eq_decide.2
  simp only [List.length_cons]
  omega

variable {x} {y : Ring}

theorem putCrcAfter_header (config : y.config = x.config) (opened : y.put = x.putOpened h) :
    y.putCrcAfter 0 (h :: ws) = x.config.burstCheck h ws := by
  rw [putCrcAfter_eq, config, opened]
  rfl

/-- A header burst accepted, on a ring whose put engine has just been opened by it. -/
theorem putAccepted_opened (fits : ws.length ≤ x.config.lastOf h) (config : y.config = x.config)
    (opened : y.put = x.putOpened h) :
    { y.putAccepted ⟨q, u, 0, .words (h :: ws)⟩ (h :: ws) with hold := [], head := .clear } =
      x.openedPut q u h ws := by
  have carries : y.put.carriesU 0 (h :: ws).length = decide (ws.length = x.config.lastOf h) := by
    rw [opened]
    exact carriesU_header x h ws fits
  have last : y.put.lastUsed = x.config.lastOf h := by rw [opened]; exact lastUsed_eq _ _
  unfold Ring.putAccepted Ring.openedPut
  simp only [carries, trailerDiffers_eq, putCrcAfter_header h ws config opened, last, Nat.sub_zero, config,
    decide_eq_true_eq]
  rw [opened]
  simp [Ring.putOpened, PutEngine.nextGeneration, Ring.openPosition, headerLength, headerMarker,
    headerSequence, Nat.add_comm]

/-- The write of that burst as it is handed down. -/
theorem putIssue_opened (fits : ws.length ≤ x.config.lastOf h) (r : RingId) (config : y.config = x.config)
    (opened : y.put = x.putOpened h) :
    y.putIssue r ⟨q, u, 0, .words (h :: ws)⟩ (h :: ws) = x.openingWrite r q u h ws := by
  have carries : y.put.carriesU 0 (h :: ws).length = decide (ws.length = x.config.lastOf h) := by
    rw [opened]
    exact carriesU_header x h ws fits
  have last : y.put.lastUsed = x.config.lastOf h := by rw [opened]; exact lastUsed_eq _ _
  unfold Ring.putIssue Ring.openingWrite
  simp only [putDataOut_eq, carries, putCrcAfter_header h ws config opened, last, Nat.sub_zero, config,
    decide_eq_true_eq]
  rw [opened]
  simp [Ring.putOpened, PutEngine.nextGeneration, RingConfig.storageAddr, Ring.openPosition, Nat.add_comm]

end

end Sys2Proof.Laws

/-! PROOFS. Putting slots (R52 to R61, R65, R71): a request that the Put Engine judges at once, verdict by
verdict; with O24 and O25. -/

namespace Sys2Proof.Laws

open Sys2Proof.Machine

/-! ## Requests that reach the Put Engine -/

section

variable {s t : State} {q : UpRequest} {r : RingId} {k : Nat} {x : Ring} {scope : Scope}

/-- The body that the Put Engine holds of a request at offset `k` (R10). -/
def bodyOf (x : Ring) (q : UpRequest) (k : Nat) : PutBody :=
  if k = x.config.slotWords then .abandon else .words q.data

theorem bodyOf_below (below : k < x.config.slotWords) : bodyOf x q k = .words q.data := if_neg below.ne

theorem bodyOf_control : bodyOf x q x.config.slotWords = .abandon := if_pos rfl

theorem exec_put (taken : s.takesIn q) (cls : s.classify q = .put r k) (passed : (s.ring r).putCheck q k = none)
    (write : q.dir = .write) :
    exec (.upstreamRequest q) s = .next
      (((s.enterOutstanding q).deliverPut r (putReqOf q k (bodyOf (s.ring r) q k))).settle r) := by
  rw [exec_upstreamRequest_put taken cls, putRequest_of_passed (s := s.enterOutstanding q) passed]
  unfold State.admitPut
  rw [write]
  rfl

theorem enters_running {clear : Prop} (running : x.state = .running) : ¬enters x clear := by
  rintro ⟨-, aborting | ⟨draining, -⟩⟩
  · rw [running] at aborting
    exact nomatch aborting
  · rw [running] at draining
    exact nomatch draining

/-- The judging, where it ends with no test of R33 met and no answer. -/
theorem eq_of_handed {issues : List Issue} (acts : Acts .loud r (s.enterOutstanding q) t x [] issues) :
    t = { s with
      outstanding := s.outstanding ++ [entryOf q]
      rings := t.rings
      driver := t.driver
      issueQueue := s.issueQueue ++ issues } := by
  have frame := acts.eq_of_loud nofun nofun
  rw [answered_nil] at frame
  exact frame

theorem eq_of_answer (taken : s.takesIn q) {status : Status} {data : List Word}
    (acts : Acts .loud r (s.enterOutstanding q) t x [⟨q.requester, q.tag, status, data⟩] []) :
    t = { s with
      upResponses := s.upResponses ++ [⟨q.requester, q.tag, status, data⟩]
      rings := t.rings
      driver := t.driver } := by
  have frame := (acts.of_request taken).eq_of_loud nofun nofun
  rw [answered_nil, List.append_nil] at frame
  exact frame

theorem eq_of_held (acts : Acts .exact r (s.enterOutstanding q) t x [] []) :
    t = { s with outstanding := s.outstanding ++ [entryOf q], rings := s.rings.set r x } := by
  have frame := acts.eq_of_exact
  rw [answered_nil, List.append_nil] at frame
  exact frame

theorem eq_of_answer_exact (taken : s.takesIn q) {status : Status} {data : List Word}
    (acts : Acts .exact r (s.enterOutstanding q) t x [⟨q.requester, q.tag, status, data⟩] []) :
    t = { s with
      upResponses := s.upResponses ++ [⟨q.requester, q.tag, status, data⟩]
      rings := s.rings.set r x } := by
  have frame := (acts.of_request taken).eq_of_exact
  rw [answered_nil, List.append_nil] at frame
  exact frame

end

/-! ## The verdicts on a request held alone -/

/-- A header burst as the Put Engine holds it. -/
abbrev burstReq (p : Requester) (u : UTag) (h : Word) (ws : List Word) : PutReq := ⟨p, u, 0, .words (h :: ws)⟩

section

variable {s v t : State} {r : RingId} {p : PutReq} {x y : Ring} {k : Scope} {a b : List UpResponse}
  {i j : List Issue}

/-- The effects of the one request held, which then leaves the queue. -/
theorem acts_left (acts : Acts k r s v (withPut x p) a i) (free : x.put.phase ≠ .committing)
    (judged : v.judgePut r p = (t, none)) (after : Acts k r s t y b j) :
    Acts k r s (State.putLoop 1 v r) { y with put := { y.put with hold := y.put.hold.tail } } b j := by
  have looped := putLoop_left (s := v) (rest := []) (by rw [acts.ring]; rfl) (by rw [acts.ring]; exact free)
    judged 0
  rw [looped]
  exact after.modPut (fun p => { p with hold := p.hold.tail })

/-- The one request held stays at the head. -/
theorem acts_held {head : HeadHold} (acts : Acts k r s v (withPut x p) a i) (free : x.put.phase ≠ .committing)
    (judged : v.judgePut r p = (v, some head)) :
    Acts k r s (State.putLoop 1 v r) { x with put := { x.put with hold := [p], head := head } } a i := by
  have looped := putLoop_held (s := v) (rest := []) (by rw [acts.ring]; rfl) (by rw [acts.ring]; exact free)
    judged 0
  rw [looped]
  exact acts.modPut (fun p => { p with head := head })

/-- The one request held is refused with cause `c`. -/
theorem acts_refused {c : Cause} (acts : Acts .loud r s v (withPut x p) a i) (free : x.put.phase ≠ .committing)
    (judged : v.judgePut r p = (v.refusePut r p c, none)) :
    Acts .loud r s (State.putLoop 1 v r)
      { x with
        put := { x.put with
          hold := []
          head := .clear
          refusal := ⟨some c, p.requester, p.offset, s.timebase, true⟩ }
        events := x.events.report c.putBits.1 c.putBits.2 1 }
      (a ++ [⟨p.requester, p.tag, .error, []⟩]) i :=
  acts_left acts free judged (acts.refusePut nofun p c)

end

section

variable {s v : State} {r : RingId} {x : Ring} {p : Requester} {u : UTag} {h : Word} {ws : List Word}
  {a : List UpResponse} {i : List Issue}

/-- A header with room opens its slot. -/
theorem acts_opens {k : Scope} (acts : Acts k r s v (withPut x (burstReq p u h ws)) a i)
    (loud : k ≠ .exact ∨ x.takeInTheWay = false) (running : x.state = .running) (closed : x.put.phase = .none) (fits : x.config.burstFits h ws)
    (room : x.roomFor) (clear : x.put.generationClear) :
    Acts k r s (State.putLoop 1 v r) (x.openedBy p u h ws) a (i ++ [x.openingWrite r p u h ws]) := by
  have judged : v.judgePut r (burstReq p u h ws) =
      ((v.takeHeader r h true).acceptWords r (burstReq p u h ws) (h :: ws), none) := by
    rw [judgePut_words rfl, judgeBurst_header_passed rfl, judgeHeaderPassed_opens] <;> rw [acts.ring]
    · exact ne_of_eq_of_ne closed nofun
    · exact room
    · exact clear
    · exact headerCause_of_fits fits (ne_of_eq_of_ne running nofun)
  have effects := (acts.openFresh loud h).acceptWords (burstReq p u h ws) (h :: ws)
  obtain ⟨-, behind⟩ := fits
  generalize opened : withPut x (burstReq p u h ws) = y at acts effects
  have own : y.config = x.config ∧ y.openedPut p u h ws = x.openedPut p u h ws ∧
      y.openingWrite r p u h ws = x.openingWrite r p u h ws := by subst opened; exact ⟨rfl, rfl, rfl⟩
  obtain ⟨config, openedPut, openingWrite⟩ := own
  rw [← config] at behind
  have put := putAccepted_opened (y := { cleared y with put := y.putOpened h }) p u h ws behind rfl rfl
  have write := putIssue_opened (y := { cleared y with put := y.putOpened h }) p u h ws behind r rfl rfl
  subst opened
  refine (acts_left acts (ne_of_eq_of_ne closed nofun) judged effects).cast ?_ rfl ?_
  · exact congrArg (fun put => ({ cleared x with put := put } : Ring)) put
  · exact congrArg (fun d => i ++ [d]) write

end

section

variable {s : State} {q : UpRequest} {r : RingId} {k : Nat}

/-- A request that the Put Engine can judge at once is judged alone, with the Ring Table's test behind it. -/
theorem exec_of_reachesPut (reaches : s.reachesPut q r k) {body : PutBody}
    (holds : bodyOf (s.ring r) q k = body) :
    exec (.upstreamRequest q) s = .next
      ((State.putLoop 1 (putQueued (s.enterOutstanding q) r (putReqOf q k body)) r).settle r) ∧
    Acts .exact r (s.enterOutstanding q) (putQueued (s.enterOutstanding q) r (putReqOf q k body))
      (withPut (s.ring r) (putReqOf q k body)) [] [] := by
  subst holds
  obtain ⟨taken, cls, passed, write, hold, free⟩ := reaches
  rw [exec_put taken cls passed write, deliverPut_free (s := s.enterOutstanding q) hold free]
  exact ⟨rfl, acts_putQueued hold⟩

theorem bodyOf_header {h : Word} {ws : List Word} (data : q.data = h :: ws) :
    bodyOf (s.ring r) q 0 = .words (h :: ws) := by
  rw [bodyOf_below (slotWords_pos _), data]

end

/-! ## The obligations -/

/-- Settles O24: the header is judged at once, and its burst is accepted on the slot it opens. -/
theorem headerOpensASlot : Obligations.HeaderOpensASlot := by
  intro s q r h ws reaches data running closed fits room clear
  obtain ⟨run, queued⟩ := exec_of_reachesPut reaches (bodyOf_header data)
  have opened := acts_opens (p := q.requester) (u := q.tag) queued.louden (.inl nofun) running closed fits room clear
  have settled := opened.settle_stays (opened.idleCondition_of_state (.inr running))
  exact ⟨_, run, settled.ring, settled.others, eq_of_handed settled⟩

theorem length_of_write {q : UpRequest} (form : q.wellFormed = true) (write : q.dir = .write) :
    q.data.length = q.count ∧ 1 ≤ q.count := by
  unfold UpRequest.wellFormed at form
  rw [write] at form
  simp only [Bool.and_eq_true, decide_eq_true_eq, beq_iff_eq] at form
  exact ⟨form.2.1, form.1.1.2⟩

/-- Words at the fill cursor that stay within U pass every test of R59. -/
theorem wordsCause_of_cursor {e : PutEngine} {k c : Nat} (filling : e.phase = .filling) (cursor : k = e.cursor)
    (within : k + c ≤ e.lastUsed + 1) (some : 1 ≤ c) : e.wordsCause k c = none := by
  unfold PutEngine.wordsCause
  rw [if_neg (not_not.2 filling), if_neg (by omega), if_neg (not_not.2 cursor), if_neg (by omega)]

/-- Settles O25: words at the fill cursor that stay within U are accepted on the slot FILLING. -/
theorem wordsExtendTheSlot : Obligations.WordsExtendTheSlot := by
  intro s q r k reaches above below filling cursor within crc reachesU _ crcIs reachesUIs
  have taken := reaches
  obtain ⟨⟨form, -⟩, -, -, write, hold, free⟩ := taken
  obtain ⟨length, some⟩ := length_of_write form write
  obtain ⟨run, queued⟩ := exec_of_reachesPut reaches (bodyOf_below below)
  generalize putReq : putReqOf q k (.words q.data) = p at run queued
  generalize putQueued (s.enterOutstanding q) r p = v at run queued
  have words : p.body = .words q.data := by rw [← putReq]; rfl
  have offset : p.offset = k := by rw [← putReq]; rfl
  have judged : v.judgePut r p = (v.acceptWords r p q.data, none) := by
    rw [judgePut_words words, judgeBurst_words_passed (by omega)]
    rw [queued.ring, offset, length]
    exact wordsCause_of_cursor filling cursor within some
  have accepted := acts_left queued free judged (queued.acceptWords p q.data)
  have settled := accepted.settle_stays
    (accepted.idleCondition_of_issue (List.mem_append_right _ (List.mem_singleton_self _)) (beq_self_eq_true r))
  have carries : (withPut (s.ring r) p).put.carriesU k q.count = decide reachesU := by
    unfold PutEngine.carriesU
    rw [← Bool.decide_and]
    refine decide_eq_decide.2 (Iff.trans ?_ reachesUIs.symm)
    show k ≤ (s.ring r).put.lastUsed ∧ (s.ring r).put.lastUsed < k + q.count ↔ _
    omega
  have check : (withPut (s.ring r) p).putCrcAfter k q.data = crc := by rw [putCrcAfter_eq, crcIs]; rfl
  have frame := (eq_of_handed settled.louden)
  rw [settled.still rfl] at frame
  refine ⟨_, run, settled.ring.trans ?_, settled.others, frame.trans ?_⟩
  · unfold Ring.putAccepted
    simp only [offset, carries, trailerDiffers_eq, check, length, decide_eq_true_eq]
    rw [← putReq]
    simp [withPut, putReqOf, filling]
  · unfold Ring.putIssue
    simp only [offset, carries, putDataOut_eq, check, length, decide_eq_true_eq]
    rw [← putReq]
    rfl

end Sys2Proof.Laws

/-! PROOFS. Puts refused, held and torn (R52 to R59, R65 to R67, R71); with O26, O27 and O28. -/

namespace Sys2Proof.Laws

open Sys2Proof.Machine

/-! ## Refusals (R54, R55, R57, R59) -/

section

variable {v : State} {r : RingId} {x : Ring} {p : PutReq} {c : Cause} {mask : BitVec 18} {i : Fin 15}

/-- The tests on a header, in their order. -/
theorem judgePut_of_header_checks {h : Word} {ws : List Word} (ring : v.ring r = withPut x p)
    (body : p.body = .words (h :: ws)) (start : p.offset = 0)
    (checks : firstOf none
      [(x.config.slotWords < 1 + x.config.lastOf h, some (.overlength, 0x80#18, 5)),
       (x.state = .draining, some (.draining, 0x40#18, 4)),
       (x.config.lastOf h < ws.length, some (.outsideSlot, 0x80#18, 5)),
       (x.put.phase = .none ∧ ¬x.roomFor ∧ x.cadence.absent = true, some (.consumerAbsent, 0x40#18, 4)),
       (x.put.phase = .none ∧ ¬x.roomFor ∧ x.config.parkTimeout = 0, some (.ringFull, 0x40#18, 4))]
      (some (c, mask, i))) :
    v.judgePut r p = (v.refusePut r p c, none) ∧ c.putBits = (mask, i) := by
  rw [judgePut_words body]
  have cause : (v.ring r).headerCause ((h :: ws).headD 0) (h :: ws).length =
      x.headerCause h (h :: ws).length := by
    rw [ring]; rfl
  rw [headerCause_eq x h ws] at cause
  obtain ⟨long, checks⟩ := checks
  by_cases overlength : x.config.slotWords < 1 + x.config.lastOf h
  · cases long overlength
    rw [if_pos overlength] at cause
    exact ⟨judgeBurst_header_refused start cause, rfl⟩
  rw [if_neg overlength] at cause
  obtain ⟨drains, checks⟩ := checks overlength
  by_cases draining : x.state = .draining
  · cases drains draining
    rw [if_pos draining] at cause
    exact ⟨judgeBurst_header_refused start cause, rfl⟩
  rw [if_neg draining] at cause
  obtain ⟨behind, checks⟩ := checks draining
  by_cases outside : x.config.lastOf h < ws.length
  · cases behind outside
    rw [if_pos outside] at cause
    exact ⟨judgeBurst_header_refused start cause, rfl⟩
  rw [if_neg outside] at cause
  rw [judgeBurst_header_passed start cause]
  obtain ⟨absence, checks⟩ := checks outside
  by_cases absent : x.put.phase = .none ∧ ¬x.roomFor ∧ x.cadence.absent = true
  · cases absence absent
    obtain ⟨closed, full, absent⟩ := absent
    rw [judgeHeaderPassed_noRoom, judgeNoRoom_absent]
    · exact ⟨rfl, rfl⟩
    all_goals rw [ring]
    · exact absent
    · exact ne_of_eq_of_ne closed nofun
    · exact full
  obtain ⟨fullness, checks⟩ := checks absent
  by_cases timeless : x.put.phase = .none ∧ ¬x.roomFor ∧ x.config.parkTimeout = 0
  · cases fullness timeless
    obtain ⟨closed, full, timeless⟩ := timeless
    have there : x.cadence.absent = false := by
      rw [← Bool.not_eq_true]
      exact fun there => absent ⟨closed, full, there⟩
    rw [judgeHeaderPassed_noRoom, judgeNoRoom_full]
    · exact ⟨rfl, rfl⟩
    all_goals rw [ring]
    · exact there
    · exact timeless
    · exact ne_of_eq_of_ne closed nofun
    · exact full
  exact nomatch checks timeless

/-- The tests on words, in their order. -/
theorem judgePut_of_words_checks {ws : List Word} {k n : Nat} (ring : v.ring r = withPut x p)
    (body : p.body = .words ws) (offset : p.offset = k) (length : ws.length = n) (above : 1 ≤ k)
    (checks : firstOf none
      [(x.put.phase ≠ .filling, some (.orphanWord, 0x80#18, 5)),
       (x.put.lastUsed < k, some (.outsideSlot, 0x80#18, 5)),
       (k ≠ x.put.cursor, some (.outOfOrder, 0x80#18, 5)),
       (x.put.lastUsed < k + n - 1, some (.outsideSlot, 0x80#18, 5))]
      (some (c, mask, i))) :
    v.judgePut r p = (v.refusePut r p c, none) ∧ c.putBits = (mask, i) := by
  have cause : (v.ring r).put.wordsCause p.offset ws.length = x.put.wordsCause k n := by
    rw [ring, offset, length]; rfl
  rw [judgePut_words body]
  suffices x.put.wordsCause k n = some c ∧ c.putBits = (mask, i) by
    obtain ⟨found, bits⟩ := this
    exact ⟨judgeBurst_words_refused (by omega) (cause.trans found), bits⟩
  unfold PutEngine.wordsCause
  obtain ⟨orphan, checks⟩ := checks
  by_cases closed : x.put.phase ≠ .filling
  · cases orphan closed
    exact ⟨if_pos closed, rfl⟩
  rw [if_neg closed]
  obtain ⟨beyond, checks⟩ := checks closed
  by_cases outside : x.put.lastUsed < k
  · cases beyond outside
    exact ⟨if_pos outside, rfl⟩
  rw [if_neg outside]
  obtain ⟨order, checks⟩ := checks outside
  by_cases jumps : k ≠ x.put.cursor
  · cases order jumps
    exact ⟨if_pos jumps, rfl⟩
  rw [if_neg jumps]
  obtain ⟨past, checks⟩ := checks jumps
  by_cases runsOver : x.put.lastUsed < k + n - 1
  · cases past runsOver
    exact ⟨if_pos runsOver, rfl⟩
  exact nomatch checks runsOver

end

/-- Settles O26: a request judged at once is refused with the first cause of its tests, one that finds the hold
queue full with QUEUE_FULL. -/
theorem putRefusalsInOrder : Obligations.PutRefusalsInOrder := by
  refine ⟨fun s q r k c mask i reaches stays checks => ?_, fun s q r k taken cls passed write stays full => ?_⟩
  · have parts := reaches
    obtain ⟨taken, -, -, write, hold, free⟩ := parts
    obtain ⟨length, -⟩ := length_of_write taken.1 write
    obtain ⟨run, queued⟩ := exec_of_reachesPut reaches rfl
    have verdict : ∃ ws, bodyOf (s.ring r) q k = .words ws ∧
        (putQueued (s.enterOutstanding q) r (putReqOf q k (.words ws))).judgePut r (putReqOf q k (.words ws)) =
          ((putQueued (s.enterOutstanding q) r (putReqOf q k (.words ws))).refusePut r
            (putReqOf q k (.words ws)) c, none) ∧ c.putBits = (mask, i) := by
      rcases checks with ⟨h, ws, rfl, data, checks⟩ | ⟨above, below, checks⟩
      · exact ⟨_, bodyOf_header data,
          judgePut_of_header_checks (ring_putQueued (s := s.enterOutstanding q) hold) rfl rfl checks⟩
      · exact ⟨_, bodyOf_below below,
          judgePut_of_words_checks (ring_putQueued (s := s.enterOutstanding q) hold) rfl rfl length above checks⟩
    obtain ⟨ws, body, judged, bits⟩ := verdict
    rw [body] at run queued
    have refused := acts_refused queued.louden free judged
    rw [bits] at refused
    have settled := refused.settle_stays
      (refused.idleCondition_of_fields stays rfl rfl rfl rfl hold.symm rfl)
    exact ⟨_, run, settled.ring, settled.others, eq_of_answer taken settled⟩
  · have run := exec_put taken cls passed write
    rw [deliverPut_full (s := s.enterOutstanding q) full] at run
    have refused := (Acts.refl .loud r (s.enterOutstanding q)).refusePut nofun
      (putReqOf q k (bodyOf (s.ring r) q k)) .queueFull
    have settled := refused.settle_stays (refused.idleCondition_of_fields stays rfl rfl rfl rfl rfl rfl)
    exact ⟨_, run, settled.ring, settled.others, eq_of_answer taken settled⟩

/-- Settles O27: a header without room parks, one whose generation is held waits, and a request behind a held
head or a commit joins the queue. -/
theorem heldRequestsWait : Obligations.HeldRequestsWait := by
  refine ⟨fun s q r h ws reaches data running inside behind => ⟨fun closed full there timeout => ?_,
    fun place held => ?_⟩, fun s q r k taken cls passed write room behind active => ?_⟩
  · obtain ⟨run, queued⟩ := exec_of_reachesPut reaches (bodyOf_header data)
    generalize putQueued (s.enterOutstanding q) r (putReqOf q 0 (.words (h :: ws))) = v at run queued
    have judged : v.judgePut r (putReqOf q 0 (.words (h :: ws))) =
        (v, some (.parked ⟨s.timebase, (s.ring r).config.parkTimeout.toNat⟩)) := by
      rw [judgePut_words rfl, judgeBurst_header_passed rfl, judgeHeaderPassed_noRoom, judgeNoRoom_parks,
        queued.timebase] <;> rw [queued.ring]
      · rfl
      · exact there
      · exact timeout
      · exact ne_of_eq_of_ne closed nofun
      · exact full
      · exact headerCause_of_fits ⟨inside, behind⟩ (ne_of_eq_of_ne running nofun)
    have acts := acts_held queued (ne_of_eq_of_ne closed nofun) judged
    rw [run]
    exact congrArg _ (eq_of_held (acts.settle_stays (acts.idleCondition_of_state (.inr running))))
  · obtain ⟨run, queued⟩ := exec_of_reachesPut reaches (bodyOf_header data)
    generalize putQueued (s.enterOutstanding q) r (putReqOf q 0 (.words (h :: ws))) = v at run queued
    have judged : v.judgePut r (putReqOf q 0 (.words (h :: ws))) = (v, some .waiting) := by
      rw [judgePut_words rfl, judgeBurst_header_passed rfl, judgeHeaderPassed_waits] <;> rw [queued.ring]
      · exact place.imp_left (And.imp_left fun closed => ne_of_eq_of_ne closed (nofun : Phase.none ≠ .filling))
      · exact held
      · exact headerCause_of_fits ⟨inside, behind⟩ (ne_of_eq_of_ne running nofun)
    obtain ⟨-, -, -, -, -, free⟩ := reaches
    have acts := acts_held queued free judged
    rw [run]
    exact congrArg _ (eq_of_held (acts.settle_stays (acts.idleCondition_of_state (.inr running))))
  · rw [exec_put taken cls passed write, deliverPut_queues (s := s.enterOutstanding q) room behind]
    have joined := (Acts.refl .exact r (s.enterOutstanding q)).modPut
      (fun e => { e with hold := e.hold ++ [putReqOf q k (bodyOf (s.ring r) q k)] })
    refine congrArg _ (eq_of_held (joined.settle_stays ?_))
    rw [← Bool.not_eq_true, joined.idleCondition_iff]
    rintro ⟨-, aborting | ⟨-, -, -, -, empty, -⟩⟩
    · exact active aborting
    · exact List.append_ne_nil_of_right_ne_nil _ (List.cons_ne_nil _ _) empty

/-! ## Torn slots (R56, R65) -/

section

variable {s v : State} {r : RingId} {x : Ring} {p : Requester} {u : UTag} {h : Word} {ws : List Word}
  {a : List UpResponse} {i : List Issue}

/-- A header restarts the slot FILLING. -/
theorem acts_restarts (acts : Acts .loud r s v (withPut x (burstReq p u h ws)) a i)
    (running : x.state = .running) (filling : x.put.phase = .filling) (fits : x.config.burstFits h ws)
    (clear : x.put.generationClear) :
    Acts .loud r s (State.putLoop 1 v r) (x.restartedBy p u h ws s.timebase) a
      (i ++ [x.openingWrite r p u h ws]) := by
  have judged : v.judgePut r (burstReq p u h ws) =
      (((v.restartTear r p).takeHeader r h false).acceptWords r (burstReq p u h ws) (h :: ws), none) := by
    rw [judgePut_words rfl, judgeBurst_header_passed rfl, judgeHeaderPassed_restarts] <;> rw [acts.ring]
    · exact filling
    · exact clear
    · exact headerCause_of_fits fits (ne_of_eq_of_ne running nofun)
  have effects := ((acts.restartTear nofun p).openAgain h).acceptWords (burstReq p u h ws) (h :: ws)
  obtain ⟨-, behind⟩ := fits
  generalize opened : ({ withPut x (burstReq p u h ws) with
    put := { (withPut x (burstReq p u h ws)).put.torned with
      refusal := ⟨some .restarted, p, 0, s.timebase, true⟩ }
    events := (withPut x (burstReq p u h ws)).events.report 0x80#18 5 1 } : Ring) = y at effects
  have own : y.config = x.config ∧ { x with put := y.openedPut p u h ws, events := y.events } =
        x.restartedBy p u h ws s.timebase ∧
      y.openingWrite r p u h ws = x.openingWrite r p u h ws := by
    subst opened
    exact ⟨rfl, rfl, rfl⟩
  obtain ⟨config, restarted, openingWrite⟩ := own
  rw [← config] at behind
  have put := putAccepted_opened (y := { y with put := y.putOpened h }) p u h ws behind rfl rfl
  have write := putIssue_opened (y := { y with put := y.putOpened h }) p u h ws behind r rfl rfl
  rw [← put] at restarted
  rw [openingWrite] at write
  refine (acts_left acts (ne_of_eq_of_ne filling nofun) judged effects).cast ?_ rfl ?_
  · rw [← restarted]
    subst opened
    rfl
  · exact congrArg (fun d => i ++ [d]) write

/-- ABANDON tears the slot FILLING. -/
theorem acts_abandons {q : PutReq} (acts : Acts .loud r s v (withPut x q) a i) (abandon : q.body = .abandon)
    (filling : x.put.phase = .filling) :
    Acts .loud r s (State.putLoop 1 v r)
      { x with
        put := { x.put with
          phase := .none
          outstanding := 0
          torn := x.put.tornList
          hold := []
          head := .clear
          refusal := ⟨some .abandoned, q.requester, q.offset, s.timebase, true⟩ }
        events := x.events.report 0x80#18 5 1 }
      (a ++ [⟨q.requester, q.tag, .ok, []⟩]) i := by
  have judged := judgePut_abandon (s := v) (r := r) abandon
  rw [judgeAbandon_torn (by rw [acts.ring]; exact filling)] at judged
  exact acts_left acts (ne_of_eq_of_ne filling nofun) judged
    (((acts.modPut PutEngine.torned).recordPut nofun .abandoned q.requester q.offset).respond q.requester q.tag
      .ok [])

/-- ABANDON where no slot is FILLING. -/
theorem acts_abandons_nothing {k : Scope} {q : PutReq} (acts : Acts k r s v (withPut x q) a i)
    (abandon : q.body = .abandon) (closed : x.put.phase = .none) :
    Acts k r s (State.putLoop 1 v r) { x with put := { x.put with hold := [], head := .clear } }
      (a ++ [⟨q.requester, q.tag, .ok, []⟩]) i := by
  have judged := judgePut_abandon (s := v) (r := r) abandon
  rw [judgeAbandon_nothing (by rw [acts.ring]; exact ne_of_eq_of_ne closed nofun)] at judged
  exact acts_left acts (ne_of_eq_of_ne closed nofun) judged (acts.respond q.requester q.tag .ok [])

end

/-- The open slot stands at the open position (R40, R58). -/
theorem position_of_positionsSound {s : State} {r : RingId} (sound : PositionsSound s)
    (active : (s.ring r).state ≠ .idle) (opened : (s.ring r).put.phase = .filling) :
    (s.ring r).put.position = ((s.ring r).t + (s.ring r).occ) % (s.ring r).config.slots := by
  rw [positionsSound_iff_at] at sound
  have roles := rolesSound_of_active (sound r) active
  exact roles.placed.slot (by simp [PutEngine.slotOpen, opened])

/-- Settles O28: a new header and ABANDON tear the slot FILLING; a DRAINING ring whose slot is gone may then
meet its drain condition. -/
theorem fillingSlotsAreTorn : Obligations.FillingSlotsAreTorn := by
  refine ⟨fun s q r h ws reaches data running filling fits clear => ?_, fun s q r reaches => ?_⟩
  · obtain ⟨run, queued⟩ := exec_of_reachesPut reaches (bodyOf_header data)
    have restarted := acts_restarts (p := q.requester) (u := q.tag) queued.louden running filling fits clear
    have settled := restarted.settle_stays (restarted.idleCondition_of_state (.inr running))
    refine ⟨_, run, settled.ring, fun sound => ?_, settled.others, eq_of_handed settled⟩
    rw [settled.ring]
    exact (position_of_positionsSound sound (ne_of_eq_of_ne running nofun) filling).symm
  · obtain ⟨run, queued⟩ := exec_of_reachesPut reaches bodyOf_control
    obtain ⟨taken, -, -, -, hold, -⟩ := reaches
    refine ⟨fun filling running => ?_, fun filling draining => ?_, fun closed stays => ?_⟩
    · have torn := acts_abandons queued.louden rfl filling
      have settled := torn.settle_stays (torn.idleCondition_of_state (.inr running))
      exact ⟨_, run, settled.ring, settled.others, eq_of_answer taken settled⟩
    · have torn := acts_abandons queued.louden rfl filling
      by_cases meets : (s.ring r).occ = 0 ∧ (s.ring r).take.record.present = false ∧
          (s.ring r).take.hold = [] ∧ s.noDownstream r
      · obtain ⟨occ, absent, reads, clear⟩ := meets
        have entered := torn.expose.settle_enters
          (torn.idleCondition_iff.2 ⟨clear, .inr ⟨draining, rfl, occ, absent, rfl, reads⟩⟩)
        have answers := (entered.of_request taken).upResponses
        rw [List.append_nil] at answers
        refine ⟨_, run, ?_, answers, ?_⟩ <;> rw [entered.ring]
        · rfl
        · exact iff_of_true rfl ⟨occ, absent, reads, clear⟩
      · have settled := torn.settle_stays (Bool.not_eq_true _ ▸ mt torn.idleCondition_iff.1 fun entered => meets <| by
          obtain ⟨clear, aborting | ⟨-, -, occ, absent, -, reads⟩⟩ := entered
          · exact nomatch draining.symm.trans aborting
          · exact ⟨occ, absent, reads, clear⟩)
        have answers := (settled.of_request taken).upResponses
        rw [List.append_nil] at answers
        refine ⟨_, run, by rw [settled.ring], answers, ?_⟩
        rw [settled.ring]
        exact iff_of_false (ne_of_eq_of_ne draining nofun) meets
    · have answered := acts_abandons_nothing queued rfl closed
      have settled := answered.settle_stays
        (answered.idleCondition_of_fields stays rfl rfl rfl rfl hold.symm rfl)
      have kept := settled.cast (y := { s.ring r with put := { (s.ring r).put with head := .clear } })
        (by rw [← hold]) rfl rfl
      rw [run, eq_of_answer_exact taken kept]

end Sys2Proof.Laws

/-! PROOFS. The hold queues behind a head that leaves them (R52, R107): the loop that judges them is the recursion
on the list held; and what a ring command's row makes of its effect. -/

namespace Sys2Proof.Laws

open Sys2Proof.Machine

/-! ## The put hold queue of a ring without room, or that drains -/

/-- The ring with `hold` as its put hold queue, of which nothing is parked or waits. -/
def withHold (x : Ring) (hold : List PutReq) : Ring := { x with put := { x.put with hold := hold, head := .clear } }

theorem withHold_singleton (x : Ring) (p : PutReq) : withHold x [p] = withPut x p := rfl

theorem headerCause_of_count (x : Ring) (h : Word) (n : Nat) : x.headerCause h n =
    if x.config.slotWords < 1 + x.config.lastOf h then some .overlength
    else if x.state = .draining then some .draining
    else if x.config.lastOf h < n - 1 then some .outsideSlot
    else none := by
  simp only [Ring.headerCause, lastOf_eq, Nat.add_assoc]

section

variable {s v : State} {r : RingId} {x : Ring} {p : PutReq} {hold : List PutReq} {a : List UpResponse}
  {i : List Issue}

/-- What `fullVerdict` says of the judging of a request with these effects. -/
def judgedAs (v : State) (r : RingId) (p : PutReq) (x : Ring) : Option (Option Cause) → Judged
  | none => (v, some (.parked ⟨v.timebase, x.config.parkTimeout.toNat⟩))
  | some none => (v.respond p.requester p.tag .ok [], none)
  | some (some c) => (v.refusePut r p c, none)

theorem judgePut_full (ring : v.ring r = withHold x hold) (closed : x.put.phase = .none)
    (full : x.state = .draining ∨ ¬x.roomFor) : v.judgePut r p = judgedAs v r p x (x.fullVerdict p) := by
  have notFilling : (v.ring r).put.phase ≠ .filling := by rw [ring]; exact ne_of_eq_of_ne closed nofun
  unfold Ring.fullVerdict
  cases body : p.body with
  | abandon =>
    rw [judgePut_abandon body, judgeAbandon_nothing notFilling]
    rfl
  | words ws =>
    rw [judgePut_words body]
    dsimp only
    split
    next above =>
      refine judgeBurst_words_refused above ?_
      unfold PutEngine.wordsCause
      exact if_pos notFilling
    next start =>
      have start := not_not.1 start
      have cause : (v.ring r).headerCause (ws.headD 0) ws.length = x.headerCause (ws.headD 0) ws.length := by
        rw [ring]; rfl
      rw [headerCause_of_count x] at cause
      by_cases overlength : x.config.slotWords < 1 + x.config.lastOf (ws.headD 0)
      · rw [if_pos overlength] at cause ⊢
        exact judgeBurst_header_refused start cause
      rw [if_neg overlength] at cause ⊢
      by_cases draining : x.state = .draining
      · rw [if_pos draining] at cause ⊢
        exact judgeBurst_header_refused start cause
      rw [if_neg draining] at cause ⊢
      by_cases outside : x.config.lastOf (ws.headD 0) < ws.length - 1
      · rw [if_pos outside] at cause ⊢
        exact judgeBurst_header_refused start cause
      rw [if_neg outside] at cause ⊢
      rw [judgeBurst_header_passed start cause,
        judgeHeaderPassed_noRoom notFilling (by rw [ring]; exact full.resolve_left draining)]
      by_cases absent : x.cadence.absent = true
      · rw [if_pos absent]
        exact judgeNoRoom_absent (by rw [ring]; exact absent)
      have there : (v.ring r).cadence.absent = false := by rw [ring]; exact eq_false_of_ne_true absent
      rw [if_neg absent]
      by_cases timeless : x.config.parkTimeout = 0
      · rw [if_pos timeless]
        exact judgeNoRoom_full there (by rw [ring]; exact timeless)
      rw [if_neg timeless]
      have parks := judgeNoRoom_parks (r := r) (p := p) there (by rw [ring]; exact timeless)
      rw [ring] at parks
      exact parks

/-- The loop is `queueJudged` (R52). -/
theorem acts_queueJudged (hold : List PutReq) : ∀ {v : State} {x : Ring} {a : List UpResponse},
    Acts .loud r s v (withHold x hold) a i → x.put.phase = .none → (x.state = .draining ∨ ¬x.roomFor) →
    Acts .loud r s (State.putLoop hold.length v r) (x.queueJudged s.timebase hold).1
      (a ++ (x.queueJudged s.timebase hold).2) i := by
  induction hold with
  | nil =>
    intro v x a acts _ _
    exact acts.cast rfl (List.append_nil a).symm rfl
  | cons p rest ih =>
    intro v x a acts closed full
    have judged := judgePut_full (p := p) acts.ring closed full
    have held : (v.ring r).put.hold = p :: rest := by rw [acts.ring]; rfl
    have free : (v.ring r).put.phase ≠ .committing := by rw [acts.ring]; exact ne_of_eq_of_ne closed nofun
    unfold Ring.queueJudged
    cases verdict : x.fullVerdict p with
    | none =>
      rw [verdict] at judged
      rw [List.length_cons, putLoop_held held free judged, ← acts.timebase]
      exact (acts.modPut _).cast rfl (List.append_nil a).symm rfl
    | some cause =>
      cases cause with
      | none =>
        rw [verdict] at judged
        rw [List.length_cons, putLoop_left held free judged]
        have left := (acts.respond p.requester p.tag .ok []).modPut (fun p => { p with hold := p.hold.tail })
        exact (ih (x := x) left closed full).cast rfl (List.append_assoc _ _ _) rfl
      | some c =>
        rw [verdict] at judged
        rw [List.length_cons, putLoop_left held free judged]
        have left := (acts.refusePut nofun p c).modPut (fun p => { p with hold := p.hold.tail })
        exact (ih (x := x.refusedWith p c s.timebase) left closed full).cast rfl (List.append_assoc _ _ _) rfl

/-- What the judging of the queue leaves of the ring. -/
theorem queueJudged_keeps (now : Time) (hold : List PutReq) : ∀ x : Ring,
    (x.queueJudged now hold).1 = { x with
      put := { x.put with
        hold := (x.queueJudged now hold).1.put.hold
        head := (x.queueJudged now hold).1.put.head
        refusal := (x.queueJudged now hold).1.put.refusal }
      events := (x.queueJudged now hold).1.events } := by
  induction hold with
  | nil => intro x; rfl
  | cons p rest ih =>
    intro x
    unfold Ring.queueJudged
    cases x.fullVerdict p with
    | none => rfl
    | some cause =>
      cases cause with
      | none => exact ih x
      | some c => exact ih (x.refusedWith p c now)

/-- Where no header parks, the queue empties. -/
theorem queueJudged_empties (now : Time) (hold : List PutReq) : ∀ x : Ring,
    (x.state = .draining ∨ x.cadence.absent = true) → (x.queueJudged now hold).1.put.hold = [] := by
  induction hold with
  | nil => intro x _; rfl
  | cons p rest ih =>
    intro x never
    have verdict : x.fullVerdict p ≠ none := by
      unfold Ring.fullVerdict
      rcases never with never | never <;> rw [never] <;> (repeat' split) <;> simp_all
    unfold Ring.queueJudged
    cases found : x.fullVerdict p with
    | none => exact absurd found verdict
    | some cause =>
      cases cause with
      | none => exact ih x never
      | some c => exact ih (x.refusedWith p c now) never

/-- A queue judged from its head. -/
theorem acts_judgePutQueue {k : Scope} (acts : Acts k r s v x a i) :
    Acts k r s (v.modPut r (fun p => { p with head := .clear })) (withHold x x.put.hold) a i ∧
      v.judgePutQueue r =
        State.putLoop x.put.hold.length (v.modPut r (fun p => { p with head := .clear })) r := by
  refine ⟨acts.modPut _, ?_⟩
  unfold State.judgePutQueue
  rw [acts.ring]

/-- A queue of one header that fits and has room: it opens its slot, or waits for its generation. -/
theorem acts_queueHeader {k : Scope} {q : Requester} {u : UTag} {h : Word} {ws : List Word} (acts : Acts k r s v x a i)
    (loud : k ≠ .exact ∨ x.takeInTheWay = false) (alone : x.put.hold = [burstReq q u h ws])
    (running : x.state = .running) (closed : x.put.phase = .none) (fits : x.config.burstFits h ws)
    (room : x.roomFor) :
    (x.put.generationClear → Acts k r s (v.judgePutQueue r) (x.openedBy q u h ws) a
      (i ++ [x.openingWrite r q u h ws])) ∧
    (¬x.put.generationClear →
      Acts k r s (v.judgePutQueue r) { x with put := { x.put with head := .waiting } } a i) := by
  obtain ⟨cleared, loop⟩ := acts_judgePutQueue acts
  rw [alone, withHold_singleton] at cleared
  rw [loop, alone]
  refine ⟨fun generation => acts_opens cleared loud running closed fits room generation, fun held => ?_⟩
  generalize v.modPut r (fun p => { p with head := .clear }) = w at cleared
  have judged : w.judgePut r (burstReq q u h ws) = (w, some .waiting) := by
    rw [judgePut_words rfl, judgeBurst_header_passed rfl, judgeHeaderPassed_waits] <;> rw [cleared.ring]
    · exact .inl ⟨ne_of_eq_of_ne closed nofun, room⟩
    · exact held
    · exact headerCause_of_fits fits (ne_of_eq_of_ne running nofun)
  refine (acts_held cleared (ne_of_eq_of_ne closed nofun) judged).cast ?_ rfl rfl
  rw [← alone]

/-- A queue that one request heads, served as `QueueServed` says. -/
theorem acts_queueServed {y : Ring} {more : List UpResponse} {issues : List Issue}
    (acts : Acts .loud r s v x a i) (closed : x.put.phase = .none) (clear : x.put.head = .clear)
    (served : x.QueueServed r s.timebase x.put.hold y more issues) :
    Acts .loud r s (v.judgePutQueue r) y (a ++ more) (i ++ issues) := by
  rcases served with ⟨empty, rfl, rfl, rfl⟩ | ⟨full, judged, rfl⟩ |
    ⟨p, u, h, ws, alone, running, fits, room, rfl, way⟩
  · obtain ⟨cleared, loop⟩ := acts_judgePutQueue acts
    rw [loop, putLoop_empty (by rw [cleared.ring]; exact empty)]
    refine cleared.cast ?_ (List.append_nil a).symm (List.append_nil i).symm
    unfold withHold
    rw [← clear]
  · obtain ⟨cleared, loop⟩ := acts_judgePutQueue acts
    rw [loop]
    have run := acts_queueJudged x.put.hold cleared closed full
    rw [← judged] at run
    exact run.cast rfl rfl (List.append_nil i).symm
  · obtain ⟨opens, waits⟩ := acts_queueHeader acts (.inl nofun) alone running closed fits room
    rcases way with ⟨generation, rfl, rfl⟩ | ⟨held, rfl, rfl⟩
    · exact (opens generation).cast rfl (List.append_nil a).symm rfl
    · exact (waits held).cast rfl (List.append_nil a).symm (List.append_nil i).symm

end

/-! ## Parked headers that leave the head (R32, R68, R69) -/

section

variable {s v : State} {r : RingId} {x : Ring} {p : PutReq} {rest : List PutReq} {a : List UpResponse}
  {i : List Issue}

/-- The parked header is refused, and the queue behind it stands to be judged. -/
theorem acts_refuseParked (acts : Acts .loud r s v x a i) (held : x.put.hold = p :: rest) (c : Cause) :
    ∃ w, v.refuseParked r c = State.putLoop rest.length w r ∧
      Acts .loud r s w (withHold (x.refusedWith p c s.timebase) rest) (a ++ [⟨p.requester, p.tag, .error, []⟩])
        i := by
  have left := (acts.refusePut nofun p c).modPut (fun p => { p with hold := p.hold.tail })
  obtain ⟨cleared, loop⟩ := acts_judgePutQueue left
  have behind : x.put.hold.tail = rest := by rw [held]; rfl
  refine ⟨_, ?_, cleared.cast ?_ rfl rfl⟩
  · unfold State.refuseParked
    rw [acts.ring, held]
    exact loop.trans (by rw [← behind]; rfl)
  · rw [← behind]
    rfl

end

/-! ## Ring commands -/

section

variable {s : State} {r : RingId} {x : Ring} {k : Scope} {a : List UpResponse} {i : List Issue}

/-- An accepted command's row, by its effect (R27). -/
theorem exec_row_of_acts (up : s.resetN = true) {c : RingCommand}
    (accepted : s.commandResult r c = .accepted) (acts : Acts k r s (s.commandEffect r c) x a i)
    (narrow : k ≠ .wide) :
    ∃ t, exec (c.row r) s = .next t ∧ t.ring r = { x with command := c.code, result := .accepted } ∧
      (∀ p, p ≠ r → t.ring p = s.ring p) ∧
      (t.survey = (s.commandEffect r c).survey ∧ t.globalFlags = (s.commandEffect r c).globalFlags ∧
        t.driver = (s.commandEffect r c).driver) ∧
      t = { s.answered a with
        rings := t.rings
        survey := t.survey
        globalFlags := t.globalFlags
        driver := t.driver
        issueQueue := s.issueQueue ++ i
        port := s.commandPort (.ring r .command) } := by
  obtain ⟨t, run, own, others, rest⟩ := exec_row_of_accepted up accepted
  rw [acts.ring] at own
  refine ⟨t, run, own, fun p hp => (others p hp).trans (acts.others p hp),
    ⟨by rw [rest], by rw [rest], by rw [rest]⟩, ?_⟩
  have frame := acts.eq_of_seen narrow
  generalize s.commandEffect r c = u at rest frame
  rw [rest, frame]

/-- The same for an effect that reaches the interrupt line at most. -/
theorem exec_row_of_loud (up : s.resetN = true) {c : RingCommand}
    (accepted : s.commandResult r c = .accepted) (acts : Acts .loud r s (s.commandEffect r c) x a i) :
    ∃ t, exec (c.row r) s = .next t ∧ t.ring r = { x with command := c.code, result := .accepted } ∧
      (∀ p, p ≠ r → t.ring p = s.ring p) ∧
      t = { s.answered a with
        rings := t.rings
        driver := t.driver
        issueQueue := s.issueQueue ++ i
        port := s.commandPort (.ring r .command) } := by
  obtain ⟨t, run, own, others, ⟨survey, flags, -⟩, frame⟩ := exec_row_of_acts up accepted acts nofun
  obtain ⟨survey', flags'⟩ := acts.unseen nofun nofun
  rw [survey, flags, survey', flags'] at frame
  exact ⟨t, run, own, others, frame⟩

/-- The same for an effect that reaches no further than the ring. -/
theorem exec_row_of_exact (up : s.resetN = true) {c : RingCommand}
    (accepted : s.commandResult r c = .accepted) (acts : Acts .exact r s (s.commandEffect r c) x [] []) :
    ∃ t, exec (c.row r) s = .next t ∧ t.ring r = { x with command := c.code, result := .accepted } ∧
      (∀ p, p ≠ r → t.ring p = s.ring p) ∧
      t = { s with rings := t.rings, port := s.commandPort (.ring r .command) } := by
  obtain ⟨t, run, own, others, ⟨survey, flags, driver⟩, frame⟩ := exec_row_of_acts up accepted acts nofun
  obtain ⟨survey', flags'⟩ := acts.unseen nofun nofun
  rw [survey, flags, driver, survey', flags', acts.still rfl, answered_nil, List.append_nil] at frame
  exact ⟨t, run, own, others, frame⟩

end

end Sys2Proof.Laws

/-! PROOFS. STOP, FLUSH and the late expiries (R32, R37, R66, R67, R69, R134, R143, R144), where the queue behind a
parked header is judged; with O19, O22 and O43. -/

namespace Sys2Proof.Laws

open Sys2Proof.Machine

/-! ## A draining ring parks no header (R32) -/

section

variable {s v : State} {r : RingId} {x : Ring}

theorem headerCause_of_draining {h : Word} {n : Nat} (draining : x.state = .draining) :
    x.headerCause h n ≠ none := by
  rw [headerCause_of_count, if_pos draining]
  split <;> nofun

theorem judgePut_draining (draining : (v.ring r).state = .draining) (p : PutReq) :
    ∃ t, v.judgePut r p = (t, none) ∧ (t.ring r).put.head = (v.ring r).put.head ∧
      (t.ring r).state = .draining := by
  have refused : ∀ c, ((v.refusePut r p c).ring r).put.head = (v.ring r).put.head ∧
      ((v.refusePut r p c).ring r).state = .draining := fun c => by
    rw [((Acts.refl .loud r v).refusePut nofun p c).ring]
    exact ⟨rfl, draining⟩
  cases body : p.body with
  | abandon =>
    refine ⟨_, judgePut_abandon body, ?_⟩
    unfold State.judgeAbandon
    split
    · rw [(((Acts.refl .loud r v).modPut PutEngine.torned).recordPut nofun .abandoned p.requester
        p.offset).respond p.requester p.tag .ok [] |>.ring]
      exact ⟨rfl, draining⟩
    · exact ⟨rfl, draining⟩
  | words ws =>
    rw [judgePut_words body]
    by_cases start : p.offset = 0
    · cases cause : (v.ring r).headerCause (ws.headD 0) ws.length with
      | none => exact absurd cause (headerCause_of_draining draining)
      | some c => exact ⟨_, judgeBurst_header_refused start cause, refused c⟩
    · cases cause : (v.ring r).put.wordsCause p.offset ws.length with
      | none =>
        refine ⟨_, judgeBurst_words_passed start cause, ?_⟩
        rw [((Acts.refl .loud r v).acceptWords p ws).ring]
        exact ⟨rfl, draining⟩
      | some c => exact ⟨_, judgeBurst_words_refused start cause, refused c⟩

theorem head_putLoop_draining (n : Nat) : ∀ {v : State}, (v.ring r).state = .draining →
    (v.ring r).put.head = .clear → ((State.putLoop n v r).ring r).put.head = .clear := by
  induction n with
  | zero => exact fun _ clear => clear
  | succ n ih =>
    intro v draining clear
    cases hold : (v.ring r).put.hold with
    | nil => rwa [putLoop_empty hold]
    | cons p rest =>
      by_cases committing : (v.ring r).put.phase = .committing
      · rwa [putLoop_committing committing]
      · obtain ⟨t, judged, head, state⟩ := judgePut_draining draining p
        rw [putLoop_left hold committing judged]
        apply ih <;> rw [ring_modPut_self]
        · exact state
        · exact head.trans clear

/-! ## The Ring Table's test, whatever it finds -/

theorem ring_settle (s : State) (r : RingId) :
    (s.settle r).ring r = s.ring r ∨ (s.settle r).ring r = (s.ring r).atIdle := by
  unfold State.settle
  split
  · exact .inr (ring_enterIdle_self s r)
  · exact .inl rfl

theorem upResponses_settle (s : State) (r : RingId) : (s.settle r).upResponses = s.upResponses := by
  cases meets : s.idleCondition r with
  | false => rw [settle_of_not meets]
  | true =>
    rw [((Acts.refl .loud r s).expose.settle_enters meets).upResponses]
    exact List.append_nil _

/-- A flag once set stays, where no flag is lost. -/
theorem flags_of_kept {w : Nat} {b c m : BitVec w} (kept : b &&& c = b) (set : b &&& m = m) : c &&& m = m := by
  calc c &&& m = c &&& (b &&& m) := by rw [set]
    _ = (b &&& c) &&& m := by rw [← BitVec.and_assoc, BitVec.and_comm c b]
    _ = m := by rw [kept, set]

theorem flags_report (e : RingEvents) (m : BitVec 18) (i : Fin 15) (n : Nat) : (e.report m i n).flags &&& m = m := by
  show (e.flags ||| m) &&& m = m
  rw [BitVec.and_or_distrib_right, BitVec.and_self]
  ext j
  simp +contextual

/-- The answers after a stretch of an event that reaches no other ring (R2). -/
theorem upResponses_of_moved {w t : State} {a : List UpResponse} (moved : Moved r w t)
    (before : w.upResponses = s.upResponses ++ a) : ∃ more, t.upResponses = s.upResponses ++ a ++ more := by
  obtain ⟨more, grown⟩ := moved.upResponses
  exact ⟨more, by rw [← grown, before]⟩

/-- A ring with more published and in-take than it can hold one more beside does not drain. -/
theorem not_enters_of_full {clear : Prop} (full : ¬x.roomFor) (slots : 2 ≤ x.config.slots)
    (active : x.state ≠ .aborting) : ¬enters x clear := by
  rintro ⟨-, aborting | ⟨-, -, occ, absent, -⟩⟩
  · exact active aborting
  · refine full (.inr ?_)
    rw [occ, absent]
    simpa using by omega

end

/-! ## STOP (R32) -/

section

variable {s : State} {r : RingId}

theorem enters_draining {x : Ring} {clear : Prop} (draining : x.state = .draining) : enters x clear ↔
    x.put.phase = .none ∧ x.occ = 0 ∧ x.take.record.present = false ∧ x.put.hold = [] ∧ x.take.hold = [] ∧
      clear := by
  constructor
  · rintro ⟨clear, aborting | ⟨-, phase, occ, absent, hold, reads⟩⟩
    · exact nomatch draining.symm.trans aborting
    · exact ⟨phase, occ, absent, hold, reads, clear⟩
  · rintro ⟨phase, occ, absent, hold, reads, clear⟩
    exact ⟨clear, .inr ⟨draining, phase, occ, absent, hold, reads⟩⟩

theorem enters_stopped : enters { s.ring r with state := .draining } (s.noDownstream r) ↔ s.drained r :=
  enters_draining rfl

theorem commandResult_stop (running : (s.ring r).state = .running) : s.commandResult r .stop = .accepted := by
  simp [State.commandResult, running]

/-- A STOP that finds no parked header is the change of state and the test of the drain condition. -/
theorem acts_stop_unparked (unparked : (s.ring r).put.head.isParked = false) :
    ∃ v, s.commandEffect r .stop = v.settle r ∧
      Acts .exact r s v { s.ring r with state := .draining } [] [] := by
  have stopped := (Acts.refl .exact r s).modRing (fun x => { x with state := .draining })
  refine ⟨_, congrArg (State.settle · r) ?_, stopped⟩
  unfold State.refuseParkedDraining
  rw [stopped.ring]
  exact if_neg (Bool.eq_false_iff.1 unparked)

/-- A STOP that finds a parked header refuses it and has the queue behind it judged. -/
theorem acts_stop_parked {timer : Timer} {q : PutReq} {rest : List PutReq}
    (parked : (s.ring r).put.head = .parked timer) (hold : (s.ring r).put.hold = q :: rest) :
    ∃ w, s.commandEffect r .stop = (State.putLoop rest.length w r).settle r ∧
      Acts .loud r s w (withHold (({ s.ring r with state := .draining } : Ring).refusedWith q .draining
        s.timebase) rest) [⟨q.requester, q.tag, .error, []⟩] [] := by
  have stopped := (Acts.refl .loud r s).modRing (fun x => { x with state := .draining })
  obtain ⟨w, judged, acts⟩ := acts_refuseParked stopped hold .draining
  refine ⟨w, congrArg (State.settle · r) (Eq.trans ?_ judged), acts⟩
  unfold State.refuseParkedDraining
  rw [stopped.ring]
  exact if_pos (by rw [parked]; rfl)

end

/-- Settles O19: the drain condition is tested behind the refusal of a parked header and of its queue. -/
theorem stopDrains : Obligations.StopDrains := by
  intro s r up running
  have accepted := commandResult_stop running
  refine ⟨fun unparked stays => ?_, fun unparked drained => ?_, fun timer q rest parked hold => ?_⟩
  · obtain ⟨v, effect, acts⟩ := acts_stop_unparked unparked
    have settled := acts.settle_stays (Bool.eq_false_iff.2 (mt acts.idleCondition_iff.1 (mt enters_stopped.1 stays)))
    rw [← effect] at settled
    exact exec_row_of_exact up accepted settled
  · obtain ⟨v, effect, acts⟩ := acts_stop_unparked unparked
    have entered := acts.louden.expose.settle_enters
      (acts.idleCondition_iff.2 (enters_stopped.2 drained))
    rw [← effect] at entered
    obtain ⟨t, run, own, -⟩ := exec_row_of_acts up accepted entered nofun
    refine ⟨t, run, ?_, ?_, ?_, ?_⟩ <;> rw [own] <;> rfl
  · obtain ⟨w, effect, acts⟩ := acts_stop_parked parked hold
    obtain ⟨t, run, own, -, rest_⟩ := exec_row_of_accepted up accepted
    have judging := inner_putLoop rest.length w r
    have moved := judging.moved.trans (moved_settle (State.putLoop rest.length w r) r)
    rw [← effect] at moved
    have answered : w.upResponses = s.upResponses ++ [⟨q.requester, q.tag, .error, []⟩] := acts.upResponses
    obtain ⟨more, grown⟩ := upResponses_of_moved moved answered
    have answers : t.upResponses = s.upResponses ++ ⟨q.requester, q.tag, .error, []⟩ :: more := by
      rw [rest_]
      exact grown.trans (List.append_assoc _ _ _)
    have settled := effect ▸ ring_settle (State.putLoop rest.length w r) r
    have state : ((State.putLoop rest.length w r).ring r).state = .draining := by
      rw [judging.ring.state, acts.ring]
      rfl
    have head := head_putLoop_draining rest.length (v := w) (by rw [acts.ring]; rfl) (by rw [acts.ring]; rfl)
    refine ⟨t, more, run, answers, ?_, by rw [own], ?_, ?_, fun alone => ?_, fun closed full slots judged is => ?_⟩
    · rcases settled with same | idle
      · rw [own, same]
        exact congrArg HeadHold.isParked head
      · rw [own, idle]
        rfl
    · rcases settled with same | idle
      · rw [own, same]
        exact .inl state
      · rw [own, idle]
        exact .inr rfl
    · rw [own]
      refine flags_of_kept moved.ring.flags ?_
      rw [acts.ring]
      exact flags_report _ _ _ _
    · subst alone
      have none : more = [] := by
        rw [effect, upResponses_settle] at grown
        exact List.self_eq_append_right.1 (answered.symm.trans grown)
      refine ⟨none, ?_⟩
      have ring : (State.putLoop ([] : List PutReq).length w r).ring r = _ := acts.ring
      rcases settled with same | idle
      · rw [own, same, ring]
        exact ⟨rfl, rfl, rfl⟩
      · rw [own, idle, ring]
        exact ⟨rfl, rfl, rfl⟩
    · have looped := acts_queueJudged rest acts closed (.inl rfl)
      rw [← is] at looped
      have kept := queueJudged_keeps s.timebase rest
        (({ s.ring r with state := .draining } : Ring).refusedWith q .draining s.timebase)
      have empties := queueJudged_empties s.timebase rest
        (({ s.ring r with state := .draining } : Ring).refusedWith q .draining s.timebase) (.inl rfl)
      rw [← is] at kept empties
      have settled := looped.settle_stays (Bool.eq_false_iff.2 (mt looped.idleCondition_iff.1 ?_))
      · rw [← effect] at settled
        obtain ⟨t', run', own', others', frame⟩ := exec_row_of_loud up accepted settled
        cases run.symm.trans run'
        exact ⟨own', by rw [own']; exact empties, others', frame.trans (by rw [List.append_nil]; rfl)⟩
      · rw [kept]
        exact not_enters_of_full full slots nofun

/-! ## FLUSH (R37, R67, R134) -/

section

variable {s v : State} {r : RingId} {x : Ring} {k : Scope} {a : List UpResponse} {i : List Issue}

theorem roomAppears_unparked (unparked : (s.ring r).put.head.isParked = false) : s.roomAppears r = s := by
  simp [State.roomAppears, unparked]

theorem roomAppears_parked (parked : (s.ring r).put.head.isParked = true)
    (message : (s.ring r).config.kind = .message) (room : (s.ring r).roomFor) :
    s.roomAppears r = s.judgePutQueue r := by
  simp [State.roomAppears, parked, message, (hasRoom_iff _).2 room]

/-- A FLUSH, before a parked header takes the room. -/
theorem revoked_flushSet (x : Ring) : revoked x.flushSet = x.flushedOut := by
  unfold revoked Ring.flushSet Ring.flushedOut Ring.departAll Ring.departN
  have some : (decide (x.config.kind = .paced) && decide (0 < x.occ)) =
      decide (x.config.kind = .paced ∧ x.occ ≠ 0) := by
    rw [← Bool.decide_and]
    simp [Nat.pos_iff_ne_zero]
  rw [some]
  cases x.take.record.present <;> cases kind : x.config.kind <;> simp

theorem acts_flushedOut (acts : Acts .loud r s v x a i) :
    Acts .loud r s ((v.modRing r Ring.flushSet).revokeTake r) x.flushedOut a i :=
  ((acts.modRing Ring.flushSet).revokeTake nofun).cast (revoked_flushSet x) rfl rfl

theorem roomFor_flushedOut (slots : 2 ≤ x.config.slots) : x.flushedOut.roomFor := by
  refine .inr ?_
  unfold Ring.flushedOut
  cases present : x.take.record.present
  · simpa [present] using by omega
  · simpa [TakeEngine.ended, TakeRecord.reset] using by omega

end

/-- Settles O22: what the flush leaves is the departure and the revocation, in either order; the room is then a
parked header's. -/
theorem flushDepartsEverything : Obligations.FlushDepartsEverything := by
  intro s r x up running is
  have accepted : s.commandResult r .flush = .accepted := by simp [State.commandResult, running]
  have flushed := acts_flushedOut (Acts.refl .loud r s)
  have effect : s.commandEffect r .flush = (((s.modRing r Ring.flushSet).revokeTake r).roomAppears r) := rfl
  generalize (s.modRing r Ring.flushSet).revokeTake r = v at flushed effect
  have head : (v.ring r).put = (s.ring r).put := by rw [flushed.ring]; rfl
  subst is
  refine ⟨fun unparked => ?_, fun timer q u h ws message parked hold fits closed slots clear => ?_⟩
  · rw [roomAppears_unparked (by rw [head]; exact unparked)] at effect
    rw [← effect] at flushed
    obtain ⟨t, run, own, others, frame⟩ := exec_row_of_loud up accepted flushed
    rw [answered_nil, List.append_nil] at frame
    exact ⟨t, run, own, others, frame⟩
  · have room := roomFor_flushedOut slots
    rw [roomAppears_parked (by rw [head, parked]; rfl) (by rw [flushed.ring]; exact message)
      (by rw [flushed.ring]; exact room)] at effect
    obtain ⟨cleared, loop⟩ := acts_judgePutQueue flushed
    have held : (s.ring r).flushedOut.put.hold = [burstReq q u h ws] := hold
    rw [loop, held] at effect
    rw [held] at cleared
    have opened := acts_opens cleared (.inl nofun) running closed fits room clear
    have looped : State.putLoop [burstReq q u h ws].length (v.modPut r fun p => { p with head := .clear }) r =
      State.putLoop 1 (v.modPut r fun p => { p with head := .clear }) r := rfl
    rw [← looped, ← effect] at opened
    obtain ⟨t, run, own, others, frame⟩ := exec_row_of_loud up accepted opened
    rw [answered_nil] at frame
    exact ⟨t, run, own, others, frame⟩

end Sys2Proof.Laws

/-! PROOFS. The late expiries (R69, R143, R144); with O43. -/

namespace Sys2Proof.Laws

open Sys2Proof.Machine

/-! ## What the judging of put requests leaves of the ring -/

/-- From `x` to `y` nothing of the ring changes but its engines and its events; on a MESSAGE ring, the Take Engine
stays too. -/
def EnginesOnly (x y : Ring) : Prop :=
  y = { x with put := y.put, take := y.take, events := y.events } ∧ (x.config.kind = .message → y.take = x.take)

section

variable {x y z : Ring} {v : State} {r : RingId}

theorem EnginesOnly.refl (x : Ring) : EnginesOnly x x := ⟨rfl, fun _ => rfl⟩

theorem EnginesOnly.trans (a : EnginesOnly x y) (b : EnginesOnly y z) : EnginesOnly x z := by
  obtain ⟨rest, take⟩ := a
  obtain ⟨rest', take'⟩ := b
  have config : y.config = x.config := (congrArg Ring.config rest).trans rfl
  exact ⟨by rw [rest', rest], fun message => (take' (by rw [config]; exact message)).trans (take message)⟩

theorem enginesOnly_refusePut (v : State) (r : RingId) (p : PutReq) (c : Cause) :
    EnginesOnly (v.ring r) ((v.refusePut r p c).ring r) := by
  rw [((Acts.refl .loud r v).refusePut nofun p c).ring]
  exact ⟨rfl, fun _ => rfl⟩

theorem enginesOnly_judgePut (v : State) (r : RingId) (p : PutReq) :
    EnginesOnly (v.ring r) ((v.judgePut r p).1.ring r) := by
  have start := Acts.refl .loud r v
  unfold State.judgePut
  cases p.body with
  | abandon =>
    show EnginesOnly _ ((v.judgeAbandon r p).ring r)
    unfold State.judgeAbandon
    split
    · rw [(((start.modPut PutEngine.torned).recordPut nofun .abandoned p.requester p.offset).respond
        p.requester p.tag .ok []).ring]
      exact ⟨rfl, fun _ => rfl⟩
    · exact EnginesOnly.refl _
  | words ws =>
    show EnginesOnly _ ((v.judgeBurst r p ws).1.ring r)
    unfold State.judgeBurst
    dsimp only
    split
    · split
      · exact enginesOnly_refusePut v r p _
      · unfold State.judgeHeaderPassed State.judgeNoRoom
        dsimp only
        repeat' split
        · exact EnginesOnly.refl _
        · rw [(((start.restartTear nofun p.requester).openAgain _).acceptWords p ws).ring]
          exact ⟨rfl, fun _ => rfl⟩
        · exact enginesOnly_refusePut v r p _
        · exact enginesOnly_refusePut v r p _
        · exact EnginesOnly.refl _
        · exact EnginesOnly.refl _
        · rw [((start.openFresh (.inl nofun) _).acceptWords p ws).ring]
          have take : (v.ring r).config.kind = .message → (cleared (v.ring r)).take = (v.ring r).take :=
            fun message => by rw [cleared_message message]
          exact ⟨rfl, take⟩
    · split
      · exact enginesOnly_refusePut v r p _
      · rw [(start.acceptWords p ws).ring]
        exact ⟨rfl, fun _ => rfl⟩

theorem enginesOnly_modPut (v : State) (r : RingId) (f : PutEngine → PutEngine) :
    EnginesOnly (v.ring r) ((v.modPut r f).ring r) := by
  rw [ring_modPut_self]
  exact ⟨rfl, fun _ => rfl⟩

theorem enginesOnly_putLoop (n : Nat) : ∀ v : State,
    EnginesOnly (v.ring r) ((State.putLoop n v r).ring r) := by
  induction n with
  | zero => exact fun v => EnginesOnly.refl _
  | succ n ih =>
    intro v
    cases hold : (v.ring r).put.hold with
    | nil => rw [putLoop_empty hold]; exact EnginesOnly.refl _
    | cons p rest =>
      by_cases committing : (v.ring r).put.phase = .committing
      · rw [putLoop_committing committing]; exact EnginesOnly.refl _
      · have judged := enginesOnly_judgePut v r p
        obtain ⟨t, verdict⟩ : ∃ t, v.judgePut r p = t := ⟨_, rfl⟩
        rw [verdict] at judged
        obtain ⟨t, head⟩ := t
        cases head with
        | none =>
          rw [putLoop_left hold committing verdict]
          exact (judged.trans (enginesOnly_modPut t r _)).trans (ih _)
        | some head =>
          rw [putLoop_held hold committing verdict]
          exact judged.trans (enginesOnly_modPut t r _)

end

/-! ## The count of late expiries -/

theorem or_and_of_and {w : Nat} {f a m : BitVec w} (h : a &&& m = m) : (f ||| a) &&& m = m := by
  rw [BitVec.and_or_distrib_right, h]
  ext j
  simp +contextual

theorem or_flagsIf_false (f m : BitVec 18) : f ||| flagsIf false m = f := BitVec.or_zero

section

variable {s v : State} {r : RingId} {x : Ring} {a : List UpResponse} {i : List Issue}

/-- A late expiry on a ring with nothing published only arms the timer again. -/
theorem acts_cadenceLate_empty (empty : (s.ring r).occ = 0) :
    Acts .exact r s (s.cadenceLate r)
      { s.ring r with
        cadence := { (s.ring r).cadence with lateTimer := (s.ring r).config.lateTimer s.timebase } } [] [] := by
  have armed := (Acts.refl .exact r s).modCadence
    (fun c => { c with lateTimer := (s.ring r).config.lateTimer s.timebase })
  unfold State.cadenceLate
  rw [if_pos empty]
  exact armed

/-- A counted late expiry. -/
theorem acts_cadenceLate (published : (s.ring r).occ ≠ 0) (absent : Bool)
    (declares : (s.ring r).declaresAbsent = absent) :
    Acts .loud r s (s.cadenceLate r)
      { s.ring r with
        cadence := { (s.ring r).cadence with
          lateTimer := (s.ring r).config.lateTimer s.timebase
          lateCount := (s.ring r).lateCountNext
          lastKind := .late
          absent := absent || (s.ring r).cadence.absent }
        events := { (s.ring r).events.report 0x2000#18 12 1 with
          flags := (s.ring r).events.flags ||| 0x2000#18 ||| flagsIf absent 0x4000#18 } } [] [] := by
  have counted := (((Acts.refl .loud r s).modCadence
    (fun c => { c with lateTimer := (s.ring r).config.lateTimer s.timebase })).modCadence
    (fun c => { c with lateCount := (s.ring r).lateCountNext, lastKind := .late })).report nofun .cadence
    .cadenceLate 1
  unfold State.cadenceLate
  rw [if_neg published, declares]
  cases absent
  · refine counted.cast ?_ rfl rfl
    rw [or_flagsIf_false]
    rfl
  · exact (counted.modCadence (fun c => { c with absent := true })).raise nofun .consumerAbsent

theorem refuseAbsent_unparked (unparked : (s.ring r).put.head.isParked = false) : s.refuseAbsent r = s := by
  simp [State.refuseAbsent, unparked]

theorem refuseAbsent_parked (parked : (s.ring r).put.head.isParked = true)
    (message : (s.ring r).config.kind = .message) : s.refuseAbsent r = s.refuseParked r .consumerAbsent := by
  simp [State.refuseAbsent, parked, message]

theorem not_enters_of_published {clear : Prop} (published : x.occ ≠ 0) (active : x.state ≠ .aborting) :
    ¬enters x clear := by
  rintro ⟨-, aborting | ⟨-, -, occ, -⟩⟩
  · exact active aborting
  · exact published occ

end

/-- Settles O43: the count comes first; the refusal of a parked header and the test of the drain condition follow
a declaration only. -/
theorem lateExpiriesAreCounted : Obligations.LateExpiriesAreCounted := by
  intro s r timer next counted absent _ up serving armed cadence nextIs absentIs countedIs
  have run : exec (.lateTimerExpiry r) s = .next (s.lateExpiry r) := congrArg Host.Outcome.next (whileUp_of_up up _)
  have serves : (s.ring r).state.serving = true := by rcases serving with state | state <;> rw [state] <;> rfl
  have timerIs : (s.ring r).config.lateTimer s.timebase =
      some ⟨s.timebase, (s.ring r).config.cadenceMax.toNat⟩ := if_neg cadence
  have nextCount : (s.ring r).lateCountNext = next := nextIs.symm
  have declares : (s.ring r).declaresAbsent = decide absent := by
    rw [Bool.eq_iff_iff, decide_eq_true_iff, absentIs]
    simp [Ring.declaresAbsent, nextCount, and_assoc]
  rw [run]
  have expiry : timer.due s.timebase = true → s.lateExpiry r =
      if decide ((s.ring r).occ ≠ 0) && (s.ring r).declaresAbsent then
        ((s.cadenceLate r).refuseAbsent r).settle r
      else s.cadenceLate r := fun due => if_pos (by rw [serves, armed, timerDue_some, due]; rfl)
  have acts_counted : (s.ring r).occ ≠ 0 → Acts .loud r s (s.cadenceLate r) counted [] [] := fun published => by
    refine (acts_cadenceLate published _ declares).cast ?_ rfl rfl
    rw [countedIs, timerIs, nextCount]
    by_cases declared : absent <;> simp [declared, flagsIf]
  have active : (s.ring r).state ≠ .aborting := by
    rcases serving with state | state <;> rw [state] <;> nofun
  refine ⟨fun early => ?_, fun due empty => ?_, fun due published quiet => ?_,
    fun due published declared message park q rest parked hold => ?_⟩
  · exact congrArg Host.Outcome.next (if_neg (by simp [armed, timerDue_some, early]))
  · have acts := acts_cadenceLate_empty empty
    have frame := acts.eq_of_exact
    rw [answered_nil, List.append_nil, timerIs] at frame
    rw [expiry due, if_neg (by simp [empty]), frame]
  · have acts := acts_counted published
    have stays := acts.settle_stays (Bool.eq_false_iff.2 (mt acts.idleCondition_iff.1 (by
      rw [countedIs]
      exact not_enters_of_published published active)))
    have late : s.lateExpiry r = s.cadenceLate r ∨ s.lateExpiry r = (s.cadenceLate r).settle r := by
      rw [expiry due]
      split
      next declared =>
        have unparked : (s.ring r).put.head.isParked = false := by
          refine quiet.resolve_left (not_not.2 ?_)
          rw [declares] at declared
          simp only [Bool.and_eq_true, decide_eq_true_eq] at declared
          exact declared.2
        rw [refuseAbsent_unparked (by rw [acts.ring, countedIs]; exact unparked)]
        exact .inr rfl
      next => exact .inl rfl
    have final : Acts .loud r s (s.lateExpiry r) counted [] [] := by
      rcases late with late | late <;> rw [late]
      · exact acts
      · exact stays
    have frame := final.eq_of_loud nofun nofun
    rw [answered_nil, List.append_nil] at frame
    exact ⟨_, rfl, final.ring, final.others, frame⟩
  · have acts := acts_counted published
    have keptState : counted.state = (s.ring r).state ∧ counted.occ = (s.ring r).occ ∧
        counted.put = (s.ring r).put := by rw [countedIs]; exact ⟨rfl, rfl, rfl⟩
    obtain ⟨state, occ, put⟩ := keptState
    have parkedHead : ((s.cadenceLate r).ring r).put.head.isParked = true := by
      rw [acts.ring, put, parked]; rfl
    have kind : ((s.cadenceLate r).ring r).config.kind = .message := by
      rw [acts.ring, countedIs]; exact message
    obtain ⟨w, judged, refused⟩ := acts_refuseParked acts (by rw [put]; exact hold) .consumerAbsent
    have late : s.lateExpiry r = (State.putLoop rest.length w r).settle r := by
      rw [expiry due, declares, if_pos (by simp [published, declared]), refuseAbsent_parked parkedHead kind, judged]
    obtain ⟨engines, -⟩ := enginesOnly_putLoop (r := r) rest.length w
    have judging := inner_putLoop rest.length w r
    have stays : (State.putLoop rest.length w r).idleCondition r = false := by
      rw [← Bool.not_eq_true, idleCondition_iff_enters]
      refine not_enters_of_published ?_ ?_ <;> rw [engines, refused.ring]
      · exact ne_of_eq_of_ne occ published
      · exact ne_of_eq_of_ne state active
    rw [settle_of_not stays] at late
    rw [late]
    obtain ⟨more, grown⟩ := upResponses_of_moved judging.moved refused.upResponses
    refine ⟨_, more, rfl, grown.trans (List.append_assoc _ _ _), ?_, ?_, fun alone => ?_,
      fun closed full judged is => ?_⟩
    · rw [engines, refused.ring, countedIs]
      exact if_pos declared
    · refine flags_of_kept judging.ring.flags ?_
      rw [refused.ring, countedIs]
      show ((s.ring r).events.flags ||| 0x2000#18 ||| (if absent then 0x4000#18 else 0) ||| 0x40#18) &&&
        0x6040#18 = 0x6040#18
      rw [if_pos declared, BitVec.or_assoc, BitVec.or_assoc]
      exact or_and_of_and (by decide)
    · subst alone
      have none : more = [] := List.self_eq_append_right.1 (refused.upResponses.symm.trans grown)
      refine ⟨none, ?_⟩
      have ring : (State.putLoop ([] : List PutReq).length w r).ring r = _ := refused.ring
      rw [ring]
      exact ⟨rfl, rfl, rfl⟩
    · have looped := acts_queueJudged rest refused (by rw [countedIs]; exact closed)
        (.inr (by rw [countedIs]; exact full))
      rw [← is] at looped
      have empties := queueJudged_empties s.timebase rest (counted.refusedWith q .consumerAbsent s.timebase)
        (.inr (by rw [countedIs]; exact if_pos declared))
      rw [← is] at empties
      refine ⟨looped.ring, by rw [looped.ring]; exact empties, looped.others, ?_⟩
      have frame := looped.eq_of_loud nofun nofun
      rw [List.append_nil] at frame
      exact frame

end Sys2Proof.Laws

/-! PROOFS. ABORT (R34, R35, R73, R120); with O20. -/

namespace Sys2Proof.Laws

open Sys2Proof.Machine

/-! ## Counters (R168) -/

theorem advanceCounter_zero (c : BitVec 32) : advanceCounter c 0 = c := by
  apply BitVec.eq_of_toNat_eq
  have small := c.isLt
  simp only [advanceCounter, BitVec.toNat_ofNat]
  omega

theorem advanceCounter_add (c : BitVec 32) (m n : Nat) :
    advanceCounter (advanceCounter c m) n = advanceCounter c (m + n) := by
  apply BitVec.eq_of_toNat_eq
  have small := c.isLt
  simp only [advanceCounter, BitVec.toNat_ofNat]
  omega

theorem advanced_zero (e : RingEvents) (i : Fin 15) : e.advanced i 0 = e := by
  unfold RingEvents.advanced
  rw [advanceCounter_zero]
  have same : e.counters.set i e.counters[i] = e.counters := by
    ext j hj
    simp only [Vector.getElem_set]
    split
    next h => subst h; rfl
    next => rfl
  rw [same]

theorem advanced_add (e : RingEvents) (i : Fin 15) (m n : Nat) :
    (e.advanced i m).advanced i n = e.advanced i (m + n) := by
  unfold RingEvents.advanced
  simp only [Fin.getElem_fin, Vector.getElem_set_self, advanceCounter_add, Vector.set_set]

/-! ## The hold queues refused (R34) -/

theorem afterAborting_cons (f : RefusalRecord) (q : Requester) (k : Nat) (l : List (Requester × Nat)) (now : Time) :
    RefusalRecord.afterAborting ⟨some .aborting, q, k, now, true⟩ l now = f.afterAborting ((q, k) :: l) now := by
  unfold RefusalRecord.afterAborting
  rw [List.getLast?_cons]
  cases l.getLast? with
  | none => rfl
  | some last => rfl

section

variable {k : Scope} {s v : State} {r : RingId} {x : Ring} {a : List UpResponse} {i : List Issue}

/-- The events after `n` reports with this flag and counter. -/
def reportTimes (e : RingEvents) (mask : BitVec 18) (i : Fin 15) (n : Nat) : RingEvents :=
  { e.advanced i n with flags := e.flags ||| flagsIf (decide (n ≠ 0)) mask }

theorem reportTimes_zero (e : RingEvents) (mask : BitVec 18) (i : Fin 15) : reportTimes e mask i 0 = e := by
  unfold reportTimes
  rw [advanced_zero, show flagsIf (decide (0 ≠ 0)) mask = flagsIf false mask from rfl, or_flagsIf_false]

theorem reportTimes_report (e : RingEvents) (mask : BitVec 18) (i : Fin 15) (n : Nat) :
    reportTimes (e.report mask i 1) mask i n = reportTimes e mask i (n + 1) := by
  have counters : ((e.report mask i 1).advanced i n).counters = (e.advanced i (n + 1)).counters := by
    rw [Nat.add_comm n 1, ← advanced_add]
    rfl
  have flags : (e.report mask i 1).flags ||| flagsIf (decide (n ≠ 0)) mask =
      e.flags ||| flagsIf (decide (n + 1 ≠ 0)) mask := by
    show (e.flags ||| mask) ||| flagsIf (decide (n ≠ 0)) mask = e.flags ||| flagsIf true mask
    cases decide (n ≠ 0)
    · exact or_flagsIf_false _ _
    · show (e.flags ||| mask) ||| mask = e.flags ||| mask
      rw [BitVec.or_assoc, BitVec.or_self]
  exact congrArg₂ (fun f c => (⟨f, e.enables, c, e.bank⟩ : RingEvents)) flags counters

/-- The put requests `l` are refused with ABORTING, in order. -/
theorem acts_abortPuts (l : List PutReq) : ∀ {v : State} {x : Ring} {a : List UpResponse},
    Acts .loud r s v x a i →
    Acts .loud r s (l.foldl (fun s q => s.refusePut r q .aborting) v)
      { x with
        put := { x.put with
          refusal := x.put.refusal.afterAborting (l.map (fun q => (q.requester, q.offset))) s.timebase }
        events := reportTimes x.events 0x80#18 5 l.length }
      (a ++ l.map (fun q => ⟨q.requester, q.tag, .error, []⟩)) i := by
  induction l with
  | nil =>
    intro v x a acts
    refine acts.cast ?_ (List.append_nil a).symm rfl
    rw [List.length_nil, reportTimes_zero]
    rfl
  | cons p rest ih =>
    intro v x a acts
    refine (ih (acts.refusePut nofun p .aborting)).cast ?_ (List.append_assoc _ _ _) rfl
    rw [List.length_cons, ← reportTimes_report, List.map_cons, ← afterAborting_cons]
    rfl

theorem acts_abortTakes (l : List TakeReq) : ∀ {v : State} {x : Ring} {a : List UpResponse},
    Acts .loud r s v x a i →
    Acts .loud r s (l.foldl (fun s q => s.refuseTake r q .aborting) v)
      { x with
        take := { x.take with
          refusal := x.take.refusal.afterAborting (l.map (fun q => (q.requester, q.offset))) s.timebase }
        events := reportTimes x.events 0x100#18 6 l.length }
      (a ++ l.map (fun q => ⟨q.requester, q.tag, .error, []⟩)) i := by
  induction l with
  | nil =>
    intro v x a acts
    refine acts.cast ?_ (List.append_nil a).symm rfl
    rw [List.length_nil, reportTimes_zero]
    rfl
  | cons p rest ih =>
    intro v x a acts
    refine (ih ((acts.recordTake nofun .aborting p.requester p.offset).respondError p.requester p.tag)).cast ?_
      (List.append_assoc _ _ _) rfl
    rw [List.length_cons, ← reportTimes_report, List.map_cons, ← afterAborting_cons]
    rfl

theorem abortTear_eq (p : PutEngine) : p.abortTear = { p with
    phase := if p.phase = .filling then .none else p.phase
    outstanding := if p.phase = .filling then 0 else p.outstanding
    torn := if p.phase = .filling then p.tornList else p.torn } := by
  obtain ⟨phase⟩ := p
  cases phase <;> rfl

theorem acts_abortPutQueue (acts : Acts .loud r s v x a i) :
    Acts .loud r s (v.abortPutQueue r)
      { x with
        put := { x.put with
          hold := []
          head := .clear
          refusal := x.put.refusal.afterAborting (x.put.hold.map (fun q => (q.requester, q.offset))) s.timebase }
        events := reportTimes x.events 0x80#18 5 x.put.hold.length }
      (a ++ x.put.hold.map (fun q => ⟨q.requester, q.tag, .error, []⟩)) i := by
  unfold State.abortPutQueue
  rw [acts.ring]
  exact (acts_abortPuts x.put.hold acts).modPut (fun p => { p with hold := [], head := .clear })

theorem acts_abortTakeQueue (acts : Acts .loud r s v x a i) :
    Acts .loud r s (v.abortTakeQueue r)
      { x with
        take := { x.take with
          hold := []
          head := .clear
          refusal := x.take.refusal.afterAborting (x.take.hold.map (fun q => (q.requester, q.offset)))
            s.timebase }
        events := reportTimes x.events 0x100#18 6 x.take.hold.length }
      (a ++ x.take.hold.map (fun q => ⟨q.requester, q.tag, .error, []⟩)) i := by
  unfold State.abortTakeQueue
  rw [acts.ring]
  exact (acts_abortTakes x.take.hold acts).modTake (fun p => { p with hold := [], head := .clear })

theorem reportTimes_eq {α : Type} (e : RingEvents) (mask : BitVec 18) (i : Fin 15) (l : List α) :
    reportTimes e mask i l.length =
      { e.advanced i l.length with flags := e.flags ||| flagsIf (!l.isEmpty) mask } := by
  cases l <;> rfl

/-- The ring of an ABORT before the revocation of its take. -/
def abortHolds (x : Ring) (now : Time) : Ring :=
  { x with
    state := .aborting
    put := { x.put with
      phase := if x.put.phase = .filling then .none else x.put.phase
      outstanding := if x.put.phase = .filling then 0 else x.put.outstanding
      torn := if x.put.phase = .filling then x.put.tornList else x.put.torn
      hold := []
      head := .clear
      refusal := x.put.refusal.afterAborting (x.put.hold.map (fun q => (q.requester, q.offset))) now }
    take := { x.take with
      hold := []
      head := .clear
      refusal := x.take.refusal.afterAborting (x.take.hold.map (fun q => (q.requester, q.offset))) now }
    events :=
      { (x.events.advanced 5 x.put.hold.length).advanced 6 x.take.hold.length with
        flags := x.events.flags ||| flagsIf (!x.put.hold.isEmpty) 0x80#18 |||
          flagsIf (!x.take.hold.isEmpty) 0x100#18 } }

theorem acts_abortHolds (s : State) (r : RingId) :
    Acts .loud r s (((((s.modRing r (fun x => { x with state := .aborting })).abortPutQueue r).abortTakeQueue
        r).modPut r PutEngine.abortTear))
      (abortHolds (s.ring r) s.timebase) (s.ring r).abortAnswers [] := by
  have held := (acts_abortTakeQueue (acts_abortPutQueue
    ((Acts.refl .loud r s).modRing (fun x => { x with state := .aborting })))).modPut PutEngine.abortTear
  refine held.cast ?_ rfl rfl
  simp only [reportTimes_eq, abortTear_eq]
  rfl

theorem revoked_abortHolds (x : Ring) (now : Time) :
    (revoked (abortHolds x now)).abortSet = x.abortedAt now := by
  unfold revoked Ring.abortSet Ring.abortedAt Ring.departAll Ring.departN
  have present : (abortHolds x now).take.record.present = x.take.record.present := rfl
  rw [present]
  cases x.take.record.present
  · simp only [Bool.false_eq_true, if_false, advanced_zero, or_flagsIf_false, Nat.sub_self]
    simp [abortHolds]
  · simp only [if_true, Nat.sub_self]
    simp [abortHolds, TakeEngine.ended, RingEvents.report, RingEvents.advanced, flagsIf]

theorem abortEffects_eq (s : State) (r : RingId) : ∃ u, s.abortEffects r = u.surveySourceLoss r ∧
    Acts .loud r s u ((s.ring r).abortedAt s.timebase) (s.ring r).abortAnswers [] :=
  ⟨_, rfl, (((acts_abortHolds s r).revokeTake nofun).modRing Ring.abortSet).cast (revoked_abortHolds _ _) rfl rfl⟩

/-- The effects of an ABORT, before the test of its abort condition. -/
theorem acts_abortEffects (s : State) (r : RingId) :
    Acts .seen r s (s.abortEffects r) ((s.ring r).abortedAt s.timebase) (s.ring r).abortAnswers [] ∧
      SourceLost s (s.abortEffects r) r := by
  obtain ⟨u, effects, acts⟩ := abortEffects_eq s r
  obtain ⟨survey, flags⟩ := acts.unseen nofun nofun
  rw [effects]
  exact ⟨acts.expose.surveySourceLoss (.inl rfl),
    sourceLost_congr (sourceLost_surveySourceLoss u r) survey.symm flags.symm rfl rfl⟩

/-- A source lost once is not lost again (R158). -/
theorem sourceLost_twice {s t u : State} {r : RingId} (first : SourceLost s t r) (again : SourceLost t u r) :
    SourceLost s u r := by
  obtain ⟨lost, kept⟩ := first
  obtain ⟨-, kept'⟩ := again
  refine ⟨fun watches => ?_, fun not => ?_⟩
  · obtain ⟨survey, flags⟩ := lost watches
    obtain ⟨survey', flags'⟩ := kept' (by rw [survey]; exact fun h => h.1 rfl)
    exact ⟨survey'.trans survey, flags'.trans flags⟩
  · obtain ⟨survey, flags⟩ := kept not
    obtain ⟨survey', flags'⟩ := kept' (by rw [survey]; exact not)
    exact ⟨survey'.trans survey, flags'.trans flags⟩

/-- ABORT, with the test of its abort condition. -/
theorem acts_abortRing (s : State) (r : RingId) : ∃ y,
    Acts .seen r s (s.abortRing r) y (s.ring r).abortAnswers [] ∧ SourceLost s (s.abortRing r) r ∧
      (s.noDownstream r → y = ((s.ring r).abortedAt s.timebase).atIdle) ∧
      (¬s.noDownstream r → y = (s.ring r).abortedAt s.timebase) := by
  obtain ⟨acts, lost⟩ := acts_abortEffects s r
  have condition : enters ((s.ring r).abortedAt s.timebase) (s.noDownstream r) ↔ s.noDownstream r :=
    ⟨fun h => h.1, fun clear => ⟨clear, .inl rfl⟩⟩
  have meets := acts.idleCondition_iff.trans condition
  unfold State.abortRing
  by_cases clear : s.noDownstream r
  · refine ⟨_, acts.settle_enters (meets.2 clear), ?_, fun _ => rfl, fun not => absurd clear not⟩
    rw [settle_of (meets.2 clear)]
    exact sourceLost_twice lost (sourceLost_enterIdle _ r)
  · have stays : (s.abortEffects r).idleCondition r = false := Bool.eq_false_iff.2 (mt meets.1 clear)
    refine ⟨_, acts.settle_stays stays, ?_, fun yes => absurd yes clear, fun _ => rfl⟩
    rwa [settle_of_not stays]

end

/-- Settles O20: the effects come one after another, and the abort condition is that no request is below. -/
theorem abortEmptiesTheRing : Obligations.AbortEmptiesTheRing := by
  intro s r y up serving is
  have accepted : s.commandResult r .abort = .accepted := by
    rcases serving with state | state <;> simp [State.commandResult, state]
  obtain ⟨z, acts, lost, enters, stays⟩ := acts_abortRing s r
  obtain ⟨t, run, own, others, ⟨survey, flags, -⟩, frame⟩ := exec_row_of_acts up accepted acts nofun
  rw [List.append_nil] at frame
  subst is
  exact ⟨t, run, fun clear => by rw [own, enters clear]; rfl, fun below => by rw [own, stays below]; rfl,
    sourceLost_congr lost rfl rfl survey flags, others, frame⟩

end Sys2Proof.Laws

/-! PROOFS. SOFT_RESET (R177): the zeroing, then an abort of every ring that serves, each of which leaves the others
as they are; with O5. -/

namespace Sys2Proof.Laws

open Sys2Proof.Machine

/-- The ring once a SOFT_RESET has reached it, with its requests below as `s` has them. -/
def SoftReset (s : State) (r : RingId) (y : Ring) : Prop :=
  ((s.ring r).state = .idle ∨ (s.ring r).state = .aborting → y = s.ring r) ∧
  ((s.ring r).state = .running ∨ (s.ring r).state = .draining →
    (s.noDownstream r → y = ((s.ring r).abortedAt s.timebase).atIdle) ∧
      (¬s.noDownstream r → y = (s.ring r).abortedAt s.timebase))

/-- The answers of a SOFT_RESET that reaches the ring. -/
def softAnswers (s : State) (r : RingId) : List UpResponse :=
  if (s.ring r).state = .running ∨ (s.ring r).state = .draining then (s.ring r).abortAnswers else []

theorem serving_iff (st : RingState) : st.serving = true ↔ st = .running ∨ st = .draining := by
  cases st <;> simp [RingState.serving]

/-- One ring reached, while the survey is IDLE. -/
theorem acts_softAbort {s : State} (idle : s.survey.state = .idle) (r : RingId) : ∃ y,
    Acts .loud r s (s.softAbort r) y (softAnswers s r) [] ∧ SoftReset s r y := by
  unfold State.softAbort softAnswers SoftReset
  simp only [← serving_iff]
  by_cases serving : (s.ring r).state.serving = true
  · obtain ⟨y, acts, ⟨-, kept⟩, enters, stays⟩ := acts_abortRing s r
    obtain ⟨survey, flags⟩ := kept (fun h => h.1 idle)
    rw [if_pos serving, if_pos serving]
    refine ⟨y, ⟨acts.ring, acts.others, acts.frame, fun _ => acts.quiet nofun, fun _ _ => ⟨survey, flags⟩, nofun⟩,
      fun rests => ?_, fun _ => ⟨enters, stays⟩⟩
    rcases rests with rests | rests <;> rw [rests] at serving <;> exact Bool.noConfusion serving
  · rw [if_neg serving, if_neg serving]
    exact ⟨_, Acts.refl .loud r s, fun _ => rfl, fun serves => absurd serves serving⟩

/-- What the stretch of a SOFT_RESET over the rings `l` leaves of state `s`. -/
structure SoftResets (l : List RingId) (s t : State) : Prop where
  reached : ∀ r ∈ l, SoftReset s r (t.ring r)
  others : ∀ r, r ∉ l → t.ring r = s.ring r
  frame : t = { s.answered (l.flatMap (softAnswers s)) with rings := t.rings, driver := t.driver }

theorem softResets_foldl (l : List RingId) : ∀ {s : State}, s.survey.state = .idle → l.Nodup →
    SoftResets l s (l.foldl State.softAbort s) := by
  induction l with
  | nil =>
    intro s _ _
    exact ⟨nofun, fun _ _ => rfl, by rw [List.flatMap_nil, answered_nil]; rfl⟩
  | cons r rest ih =>
    intro s idle distinct
    obtain ⟨fresh, distinct⟩ := List.nodup_cons.1 distinct
    obtain ⟨y, acts, reset⟩ := acts_softAbort idle r
    have frame := acts.eq_of_loud nofun nofun
    rw [List.append_nil] at frame
    have below : ∀ p, (s.softAbort r).noDownstream p ↔ s.noDownstream p := fun p => by
      rw [← downstreamClear_iff, ← downstreamClear_iff, acts.downstreamClear]
    obtain ⟨reached, others, after⟩ := ih (s := s.softAbort r) (by rw [frame]; exact idle) distinct
    have answers : rest.flatMap (softAnswers (s.softAbort r)) = rest.flatMap (softAnswers s) := by
      refine List.flatMap_congr fun p mem => ?_
      unfold softAnswers
      rw [acts.others p (fun same => fresh (same ▸ mem))]
    refine ⟨fun p mem => ?_, fun p away => ?_, ?_⟩
    · by_cases same : p = r
      · subst same
        rw [List.foldl_cons, others p fresh, acts.ring]
        exact reset
      · have later := reached p ((List.mem_cons.1 mem).resolve_left same)
        unfold SoftReset at later ⊢
        rwa [acts.others p same, acts.timebase, below] at later
    · rw [List.foldl_cons, others p (fun mem => away (List.mem_cons_of_mem _ mem)),
        acts.others p (fun same => away (same ▸ List.mem_cons_self ..))]
    · rw [List.foldl_cons, List.flatMap_cons, ← answered_append]
      generalize (rest.foldl State.softAbort (s.softAbort r)) = u at after
      rw [answers] at after
      generalize s.softAbort r = v at after frame
      rw [after, frame]
      rfl

theorem zeroEvents_rest (s : State) : s.zeroEvents = { s with
    rings := s.zeroEvents.rings
    globalFlags := 0
    driver := s.zeroEvents.driver } := by
  have zeroed : allRings.foldl (fun (s : State) r => s.modEvents r RingEvents.zeroed) { s with globalFlags := 0 } = _ :=
    foldl_modRing_rest (fun x => { x with events := x.events.zeroed }) { s with globalFlags := 0 } allRings
  unfold State.zeroEvents State.releaseIfNone
  rw [zeroed]
  split <;> rfl

/-- A global command taken: its effect, and the port's answer with the code and the outcome (R177). -/
theorem takeGlobalCommand_eq (s : State) (c : GlobalCommand) :
    s.takeGlobalCommand c = (s.globalEffect c).modPort (fun p =>
      { (if s.portStandsAt (.global .command) then p.answered .ack .none else p) with
        command := c.code, result := s.globalOutcome c }) := by
  unfold State.takeGlobalCommand State.carriedBy State.globalCommand State.portAck State.modPort
  split <;> rfl

theorem softReset_port (s : State) :
    ({ (if s.portStandsAt (.global .command) then
        ({ s.port with resetCause := .soft } : Port).answered .ack .none
      else { s.port with resetCause := .soft }) with
      command := GlobalCommand.softReset.code, result := s.globalOutcome .softReset } : Port) =
    { s.commandPort (.global .command) with resetCause := .soft, command := 1, result := .accepted } := by
  unfold State.commandPort
  split <;> rfl

theorem modPort_of_port (s : State) {p p' : Port} (port : s.port = p) (f : Port → Port) (is : f p = p') :
    s.modPort f = { s with port := p' } := by
  unfold State.modPort
  rw [port, is]

/-- The state that the aborts of a SOFT_RESET start from (R22, R159, R170). -/
structure Zeroed (s w : State) : Prop where
  rings : ∀ r, w.ring r = { s.ring r with events := (s.ring r).events.cleared }
  rest : w = { s with
    rings := w.rings
    survey := s.survey.stopped
    globalFlags := 0
    driver := w.driver
    port := { s.port with resetCause := .soft } }

theorem softReset_eq (s : State) : ∃ w, s.softReset = allRings.foldl State.softAbort w ∧ Zeroed s w := by
  refine ⟨_, rfl, ring_zeroEvents (s.modPort (fun p => { p with resetCause := .soft })), ?_⟩
  have zeroed := zeroEvents_rest (s.modPort (fun p => { p with resetCause := .soft }))
  generalize (s.modPort (fun p => { p with resetCause := .soft })).zeroEvents = v at zeroed
  conv_lhs => rw [zeroed]
  rfl

theorem softAnswers_zeroed {s w : State} (zeroed : Zeroed s w) : softAnswers w = softAnswers s := by
  funext r
  unfold softAnswers
  rw [zeroed.rings r]
  rfl

theorem noDownstream_zeroed {s w : State} (zeroed : Zeroed s w) (r : RingId) :
    w.noDownstream r ↔ s.noDownstream r := by
  rw [zeroed.rest]
  exact Iff.rfl

theorem timebase_zeroed {s w : State} (zeroed : Zeroed s w) : w.timebase = s.timebase := by rw [zeroed.rest]

/-- The whole state after the effects of a SOFT_RESET. -/
theorem softReset_rest {s w u : State} (zeroed : Zeroed s w) (resets : SoftResets allRings w u) :
    u = { s.answered (allRings.flatMap (softAnswers s)) with
      rings := u.rings
      survey := s.survey.stopped
      globalFlags := 0
      driver := u.driver
      port := { s.port with resetCause := .soft } } := by
  have frame := resets.frame
  have rest := zeroed.rest
  rw [softAnswers_zeroed zeroed] at frame
  generalize allRings.flatMap (softAnswers s) = l at frame ⊢
  rw [frame, rest]
  rfl

/-- Settles O5: the abort of one ring reaches no other, and the survey, stopped before, loses no source. -/
theorem softResetZeroesAndAborts : Obligations.SoftResetZeroesAndAborts := by
  intro s up
  obtain ⟨w, effect, zeroed⟩ := softReset_eq s
  have idle : w.survey.state = .idle := by rw [zeroed.rest]; rfl
  have resets := softResets_foldl allRings idle (by decide)
  rw [← show s.globalEffect .softReset = allRings.foldl State.softAbort w from effect] at resets
  have run : exec .softReset s = .next (s.takeGlobalCommand .softReset) :=
    congrArg Host.Outcome.next (whileUp_of_up up _)
  have rest := softReset_rest zeroed resets
  rw [takeGlobalCommand_eq] at run
  generalize s.globalEffect .softReset = u at resets rest run
  have port : u.port = { s.port with resetCause := .soft } := by rw [rest]
  rw [modPort_of_port u port _ (softReset_port s)] at run
  refine ⟨_, run, fun r => ?_, ?_⟩
  · obtain ⟨rests, serves⟩ := resets.reached r (mem_allRings r)
    rw [zeroed.rings r] at rests serves
    refine ⟨rests, ?_⟩
    rintro serving y rfl
    obtain ⟨clear, busy⟩ := serves serving
    rw [noDownstream_zeroed zeroed, timebase_zeroed zeroed] at clear busy
    exact ⟨clear, busy⟩
  · conv_lhs => rw [rest]
    rfl

end Sys2Proof.Laws

/-! PROOFS. The Take Engine's judging (R81, R82, R105 to R119): a request held alone, the verdicts, the start of a
take with its reports, and the read that is handed down. -/

namespace Sys2Proof.Laws

open Sys2Proof.Machine

/-! ## The take hold queue (R107, R108) -/

/-- The ring with `p` alone in its take hold queue. -/
def withTake (x : Ring) (p : TakeReq) : Ring := { x with take := { x.take with hold := [p], head := .clear } }

/-- The request has joined the tail of the queue, whose head is judged next. -/
def takeQueued (s : State) (r : RingId) (p : TakeReq) : State :=
  (s.modTake r (fun e => { e with hold := e.hold ++ [p] })).modTake r (fun e => { e with head := .clear })

section

variable {s v t : State} {r : RingId} {p : TakeReq} {x y : Ring} {k : Scope} {a b : List UpResponse}
  {i j : List Issue}

theorem takeLoop_empty (hold : (s.ring r).take.hold = []) (n : Nat) : State.takeLoop n s r = s := by
  cases n with
  | zero => rfl
  | succ n => simp only [State.takeLoop, hold]

theorem takeLoop_left {rest : List TakeReq} (hold : (s.ring r).take.hold = p :: rest)
    (judged : s.judgeTake r p = (t, none)) (n : Nat) :
    State.takeLoop (n + 1) s r =
      State.takeLoop n (t.modTake r (fun p => { p with hold := p.hold.tail })) r := by
  simp only [State.takeLoop, hold, judged]

theorem takeLoop_held {rest : List TakeReq} {head : HeadHold} (hold : (s.ring r).take.hold = p :: rest)
    (judged : s.judgeTake r p = (t, some head)) (n : Nat) :
    State.takeLoop (n + 1) s r = t.modTake r (fun p => { p with head := head }) := by
  simp only [State.takeLoop, hold, judged]

theorem acts_takeQueued (hold : (s.ring r).take.hold = []) :
    Acts .exact r s (takeQueued s r p) (withTake (s.ring r) p) [] [] := by
  have queued := ((Acts.refl .exact r s).modTake (fun e => { e with hold := e.hold ++ [p] })).modTake
    (fun e => { e with head := .clear })
  refine queued.cast ?_ rfl rfl
  unfold withTake
  rw [hold]
  rfl

theorem deliverTake_free (hold : (s.ring r).take.hold = []) :
    s.deliverTake r p = State.takeLoop 1 (takeQueued s r p) r := by
  have queued : ((s.modTake r (fun e => { e with hold := e.hold ++ [p] })).ring r).take.hold = [p] := by
    rw [ring_modTake_self]
    simp [hold]
  have judged : (s.modTake r (fun e => { e with hold := e.hold ++ [p] })).judgeTakeQueue r =
      State.takeLoop 1 (takeQueued s r p) r := by
    unfold State.judgeTakeQueue takeQueued
    rw [queued]
    rfl
  rw [← judged]
  exact (if_neg (by simp [hold, Config.holdDepth])).trans (if_pos (by simp [hold]))

theorem deliverTake_queues (room : (s.ring r).take.hold.length < 4) (behind : (s.ring r).take.hold ≠ []) :
    s.deliverTake r p = s.modTake r (fun e => { e with hold := e.hold ++ [p] }) :=
  (if_neg (Nat.not_le.2 room)).trans (if_neg (by simp [behind]))

theorem deliverTake_full (full : 4 ≤ (s.ring r).take.hold.length) :
    s.deliverTake r p = s.refuseTake r p .queueFull := if_pos full

/-- The effects of the one request held, which then leaves the queue. -/
theorem acts_takeLeft (acts : Acts k r s v (withTake x p) a i) (judged : v.judgeTake r p = (t, none))
    {k' : Scope} (after : Acts k' r s t y b j) :
    Acts k' r s (State.takeLoop 1 v r) { y with take := { y.take with hold := y.take.hold.tail } } b j := by
  have looped := takeLoop_left (s := v) (rest := []) (by rw [acts.ring]; rfl) judged 0
  rw [looped]
  exact after.modTake (fun p => { p with hold := p.hold.tail })

/-- The one request held stays at the head. -/
theorem acts_takeHeld {head : HeadHold} (acts : Acts k r s v (withTake x p) a i)
    (judged : v.judgeTake r p = (v, some head)) :
    Acts k r s (State.takeLoop 1 v r) { x with take := { x.take with hold := [p], head := head } } a i := by
  have looped := takeLoop_held (s := v) (rest := []) (by rw [acts.ring]; rfl) judged 0
  rw [looped]
  exact acts.modTake (fun p => { p with head := head })

/-- A queue judged from its head. -/
theorem acts_judgeTakeQueue (acts : Acts k r s v x a i) :
    Acts k r s (v.modTake r (fun p => { p with head := .clear }))
        { x with take := { x.take with head := .clear } } a i ∧
      v.judgeTakeQueue r =
        State.takeLoop x.take.hold.length (v.modTake r (fun p => { p with head := .clear })) r := by
  refine ⟨acts.modTake _, ?_⟩
  unfold State.judgeTakeQueue
  rw [acts.ring]

/-! ## The verdicts (R81, R82, R109, R112, R117) -/

theorem judgeTake_present (read : p.release = false) (present : (v.ring r).take.record.present = true) :
    v.judgeTake r p = v.judgePresent r p := by
  simp only [State.judgeTake, read, Bool.false_eq_true, if_false, present, if_true]

theorem judgeTake_absent (read : p.release = false) (absent : (v.ring r).take.record.present = false) :
    v.judgeTake r p = v.judgeAbsent r p := by
  simp only [State.judgeTake, read, Bool.false_eq_true, if_false, absent]

theorem judgeTake_release (release : p.release = true) : v.judgeTake r p = (v.judgeRelease r p, none) := by
  simp only [State.judgeTake, release, if_true]

theorem judgeAbsent_above (above : p.offset ≠ 0) :
    v.judgeAbsent r p = (v.respondFill r p.requester p.tag p.count, none) := if_pos above

theorem judgeAbsent_message (start : p.offset = 0) (message : (v.ring r).config.kind = .message) :
    v.judgeAbsent r p = v.judgeMessage r p := by
  simp only [State.judgeAbsent, start, ne_eq, not_true_eq_false, if_false, message]

theorem judgeAbsent_paced (start : p.offset = 0) (paced : (v.ring r).config.kind = .paced) :
    v.judgeAbsent r p = v.judgePaced r p := by
  simp only [State.judgeAbsent, start, ne_eq, not_true_eq_false, if_false, paced]

theorem judgeMessage_takes (published : (v.ring r).occ ≠ 0) :
    v.judgeMessage r p = ((v.takeHead r).serveRead r p, none) := if_pos published

theorem judgeMessage_parks (empty : (v.ring r).occ = 0) (timeout : (v.ring r).config.parkTimeout ≠ 0)
    (running : (v.ring r).state = .running) :
    v.judgeMessage r p =
      (v, some (.parked ⟨v.timebase, (v.ring r).config.parkTimeout.toNat⟩)) :=
  (if_neg (not_not.2 empty)).trans (if_pos ⟨timeout, running⟩)

theorem judgeMessage_fills (empty : (v.ring r).occ = 0)
    (never : (v.ring r).config.parkTimeout = 0 ∨ (v.ring r).state ≠ .running) :
    v.judgeMessage r p = (v.respondFill r p.requester p.tag p.count, none) :=
  (if_neg (not_not.2 empty)).trans (if_neg fun parks => never.elim parks.1 fun not => not parks.2)

theorem readInFlight_iff (e : TakeEngine) :
    e.readInFlight = true ↔ ∃ d ∈ e.reads, d.number = e.record.number := by
  simp [TakeEngine.readInFlight]

theorem readInFlight_eq_false_iff (e : TakeEngine) :
    e.readInFlight = false ↔ ∀ d ∈ e.reads, d.number ≠ e.record.number := by
  simp [TakeEngine.readInFlight]

theorem judgePresent_unchecked (off : (v.ring r).config.takeCheck = false) :
    v.judgePresent r p = (v.serveRead r p, none) := by
  simp only [State.judgePresent, off, Bool.false_eq_true, if_false]

theorem judgePresent_waits (on : (v.ring r).config.takeCheck = true)
    (flight : (v.ring r).take.readInFlight = true) : v.judgePresent r p = (v, some .waiting) := by
  simp only [State.judgePresent, State.judgeChecked, on, flight, if_true]

theorem judgePresent_restarts (on : (v.ring r).config.takeCheck = true)
    (landed : (v.ring r).take.readInFlight = false) (start : p.offset = 0) :
    v.judgePresent r p = ((v.modTake r (fun t =>
      { t with record := { t.record with cursor := 0, crc := crcStart } })).serveRead r p, none) := by
  simp only [State.judgePresent, State.judgeChecked, on, landed, if_true, Bool.false_eq_true, if_false, start]

theorem judgePresent_follows (on : (v.ring r).config.takeCheck = true)
    (landed : (v.ring r).take.readInFlight = false) (above : p.offset ≠ 0)
    (cursor : p.offset = (v.ring r).take.record.cursor) :
    v.judgePresent r p = (v.serveRead r p, none) := by
  simp only [State.judgePresent, State.judgeChecked, on, landed, if_true, Bool.false_eq_true, if_false, above]
  exact if_pos cursor

theorem judgePresent_refuses (on : (v.ring r).config.takeCheck = true)
    (landed : (v.ring r).take.readInFlight = false) (above : p.offset ≠ 0)
    (jumps : p.offset ≠ (v.ring r).take.record.cursor) :
    v.judgePresent r p = (v.refuseTake r p .outOfOrder, none) := by
  simp only [State.judgePresent, State.judgeChecked, on, landed, if_true, Bool.false_eq_true, if_false, above]
  exact if_neg jumps

theorem judgeRelease_absent (absent : (v.ring r).take.record.present = false) :
    v.judgeRelease r p = v.respondFill r p.requester p.tag 1 := by
  simp only [State.judgeRelease, absent, Bool.false_eq_true, if_false]

theorem judgeRelease_present (present : (v.ring r).take.record.present = true) :
    v.judgeRelease r p = (v.handRead r p 0 1 false).releaseTake r := by
  simp only [State.judgeRelease, present, if_true]

theorem serveRead_fills (beyond : (v.ring r).take.record.lastUsed < p.offset) :
    v.serveRead r p = v.respondFill r p.requester p.tag p.count := if_pos beyond

end

/-! ## The read that is handed down (R112, R113) -/

namespace Acts

variable {k : Scope} {r : RingId} {s t : State} {x : Ring} {a : List UpResponse} {i : List Issue}

theorem refuseTake (h : Acts k r s t x a i) (loud : k ≠ .exact) (q : TakeReq) (c : Cause) :
    Acts k r s (t.refuseTake r q c)
      { x with
        take := { x.take with refusal := ⟨some c, q.requester, q.offset, s.timebase, true⟩ }
        events := x.events.report c.takeFlag.mask c.takeCounter.index 1 }
      (a ++ [⟨q.requester, q.tag, .error, []⟩]) i :=
  (h.recordTake loud c q.requester q.offset).respondError q.requester q.tag

theorem handRead (h : Acts k r s t x a i) (q : TakeReq) (o n : Nat) (coversU : Bool) :
    Acts k r s (t.handRead r q o n coversU)
      { x with take := { x.take with
        reads := x.take.reads ++
          [⟨q.requester, q.tag, q.offset, q.count, x.take.record.number, coversU, n⟩] } }
      a (i ++ [x.takeIssue r q o n]) := by
  have handed := (h.modTake (fun t => { t with reads := t.reads ++
    [⟨q.requester, q.tag, q.offset, q.count, x.take.record.number, coversU, n⟩] })).handDown
    (x.takeIssue r q o n)
  unfold State.handRead
  rw [h.ring]
  exact handed

/-- A read within U is served from storage. -/
theorem serveRead (h : Acts k r s t x a i) (q : TakeReq) {n : Nat} (within : q.offset ≤ x.take.record.lastUsed)
    (words : n = min (q.offset + q.count) (x.take.record.lastUsed + 1) - q.offset) :
    Acts k r s (t.serveRead r q)
      { x with take := { x.take with
        reads := x.take.reads ++
          [⟨q.requester, q.tag, q.offset, q.count, x.take.record.number,
            decide (x.take.record.lastUsed < q.offset + q.count), n⟩] } }
      a (i ++ [x.takeIssue r q q.offset n]) := by
  have served := h.handRead q q.offset n (decide (q.offset + n = x.take.record.lastUsed + 1))
  have covers : decide (q.offset + n = x.take.record.lastUsed + 1) =
      decide (x.take.record.lastUsed < q.offset + q.count) := decide_eq_decide.2 (by omega)
  have serve : t.serveRead r q =
      t.handRead r q q.offset n (decide (q.offset + n = x.take.record.lastUsed + 1)) := by
    unfold State.serveRead TakeRecord.recordWords
    rw [h.ring, if_neg (Nat.not_lt.2 within), ← words]
  rw [serve]
  exact served.cast (by rw [covers]) rfl rfl

end Acts

end Sys2Proof.Laws

/-! PROOFS. Reads that find no slot and reads of a present take (R81, R82, R107 to R109, R112, R113, R118); with O36
and O37. -/

namespace Sys2Proof.Laws

open Sys2Proof.Machine

/-! ## Requests that reach the Take Engine -/

/-- The request as the Take Engine holds it: a data-half read or RELEASE (R104). -/
def takeAt (x : Ring) (q : UpRequest) (k : Nat) : TakeReq :=
  ⟨q.requester, q.tag, k, q.count, decide (k = x.config.slotWords)⟩

section

variable {s t : State} {q : UpRequest} {r : RingId} {k : Nat} {x : Ring}

theorem not_aborting_of_takeCheck (passed : x.takeCheckCause q k = none) : x.state ≠ .aborting := fun aborting =>
  nomatch passed.symm.trans (takeCheckCause_of_refused (commonCheck_aborting aborting))

theorem takeAt_below (below : k < x.config.slotWords) : takeAt x q k = takeReqOf q k := by
  unfold takeAt takeReqOf
  rw [decide_eq_false below.ne]

theorem exec_take (taken : s.takesIn q) (cls : s.classify q = .take r k)
    (passed : (s.ring r).takeCheckCause q k = none) (within : k ≤ (s.ring r).config.slotWords) :
    exec (.upstreamRequest q) s = .next
      (((s.enterOutstanding q).deliverTake r (takeAt (s.ring r) q k)).settle r) := by
  rw [exec_upstreamRequest_take taken cls, takeRequest_of_passed (s := s.enterOutstanding q) passed]
  refine congrArg _ ((if_neg ?_).trans (if_neg ?_))
  · exact (Nat.lt_succ_of_le within).ne
  · exact not_lt_of_gt (Nat.lt_succ_of_le within)

theorem exec_of_reachesTake (reaches : s.reachesTake q r k) {p : TakeReq} (holds : takeAt (s.ring r) q k = p) :
    exec (.upstreamRequest q) s = .next
      ((State.takeLoop 1 (takeQueued (s.enterOutstanding q) r p) r).settle r) ∧
    Acts .exact r (s.enterOutstanding q) (takeQueued (s.enterOutstanding q) r p) (withTake (s.ring r) p) [] [] := by
  subst holds
  obtain ⟨taken, cls, passed, within, hold⟩ := reaches
  rw [exec_take taken cls passed within, deliverTake_free (s := s.enterOutstanding q) hold]
  exact ⟨rfl, acts_takeQueued hold⟩

theorem eq_of_handed_exact {issues : List Issue} (acts : Acts .exact r (s.enterOutstanding q) t x [] issues) :
    t = { s with
      outstanding := s.outstanding ++ [entryOf q]
      issueQueue := s.issueQueue ++ issues
      rings := s.rings.set r x } := by
  have frame := acts.eq_of_exact
  rw [answered_nil] at frame
  exact frame

end

/-! ## Reads without a slot -/

section

variable {s v : State} {r : RingId} {x : Ring} {p : TakeReq} {a : List UpResponse} {i : List Issue} {k : Scope}

/-- A read answered with fill words. -/
theorem acts_fills (acts : Acts k r s v (withTake x p) a i) {c : Nat}
    (judged : v.judgeTake r p = (v.respondFill r p.requester p.tag c, none)) :
    Acts k r s (State.takeLoop 1 v r) { x with take := { x.take with hold := [], head := .clear } }
      (a ++ [⟨p.requester, p.tag, .ok, List.replicate c x.config.fillWord⟩]) i :=
  acts_takeLeft acts judged (acts.respondFill p.requester p.tag c)

theorem emptied_hold (hold : x.take.hold = []) :
    { x with take := { x.take with hold := [], head := .clear } } =
      { x with take := { x.take with head := .clear } } := by
  rw [← hold]

end

/-- Settles O36: without a take and without a slot a read is filled or parks; behind one held it queues. -/
theorem readsWithoutASlot : Obligations.ReadsWithoutASlot := by
  refine ⟨fun s q r k reaches below absent stays => ⟨fun fills => ?_,
    fun start message empty timeout running => ?_⟩,
    fun s q r k taken cls passed within stays => ⟨fun behind room => ?_, fun full => ?_⟩⟩
  · obtain ⟨run, queued⟩ := exec_of_reachesTake reaches (takeAt_below below)
    generalize takeQueued (s.enterOutstanding q) r (takeReqOf q k) = v at run queued
    have judged : v.judgeTake r (takeReqOf q k) = (v.respondFill r q.requester q.tag q.count, none) := by
      rw [judgeTake_absent rfl (by rw [queued.ring]; exact absent)]
      rcases Nat.eq_zero_or_pos k with rfl | above
      · obtain ⟨message, empty, never⟩ := fills.resolve_left (not_not.2 rfl)
        rw [judgeAbsent_message rfl (by rw [queued.ring]; exact message)]
        refine judgeMessage_fills ?_ ?_ <;> rw [queued.ring]
        · exact empty
        · exact never.imp_right fun draining => ne_of_eq_of_ne draining (nofun : RingState.draining ≠ .running)
      · exact judgeAbsent_above above.ne'
    obtain ⟨taken, -, -, -, hold⟩ := reaches
    have filled := (acts_fills queued judged).cast (emptied_hold hold) rfl rfl
    have settled := filled.settle_stays (filled.idleCondition_of_fields stays rfl rfl rfl rfl rfl rfl)
    rw [run]
    exact congrArg _ (eq_of_answer_exact taken settled)
  · subst start
    obtain ⟨run, queued⟩ := exec_of_reachesTake reaches (takeAt_below below)
    generalize takeQueued (s.enterOutstanding q) r (takeReqOf q 0) = v at run queued
    have judged : v.judgeTake r (takeReqOf q 0) =
        (v, some (.parked ⟨s.timebase, (s.ring r).config.parkTimeout.toNat⟩)) := by
      rw [judgeTake_absent rfl (by rw [queued.ring]; exact absent),
        judgeAbsent_message rfl (by rw [queued.ring]; exact message), judgeMessage_parks, queued.timebase] <;>
        rw [queued.ring]
      · rfl
      · exact empty
      · exact timeout
      · exact running
    have held := acts_takeHeld queued judged
    rw [run]
    exact congrArg _ (eq_of_held (held.settle_stays (held.idleCondition_of_state (.inr running))))
  · rw [exec_take taken cls passed within, deliverTake_queues (s := s.enterOutstanding q) room behind]
    have joined := (Acts.refl .exact r (s.enterOutstanding q)).modTake
      (fun e => { e with hold := e.hold ++ [takeAt (s.ring r) q k] })
    refine congrArg _ (eq_of_held (joined.settle_stays ?_))
    rw [← Bool.not_eq_true, joined.idleCondition_iff]
    rw [← Bool.not_eq_true, idleCondition_iff_enters] at stays
    rintro ⟨clear, aborting | ⟨-, -, -, -, -, empty⟩⟩
    · exact stays ⟨clear, .inl aborting⟩
    · exact List.append_ne_nil_of_right_ne_nil _ (List.cons_ne_nil _ _) empty
  · have run := exec_take taken cls passed within
    rw [deliverTake_full (s := s.enterOutstanding q) full] at run
    have refused := (Acts.refl .loud r (s.enterOutstanding q)).refuseTake nofun (takeAt (s.ring r) q k) .queueFull
    have settled := refused.settle_stays (refused.idleCondition_of_fields stays rfl rfl rfl rfl rfl rfl)
    exact ⟨_, run, settled.ring, settled.others, eq_of_answer taken settled⟩

/-! ## Reads of a present take -/

section

variable {s v : State} {r : RingId} {x : Ring} {p : TakeReq} {a : List UpResponse} {i : List Issue}

/-- A read within U of a present take. -/
theorem acts_serves (acts : Acts .exact r s v (withTake x p) a i) (read : p.release = false)
    (present : x.take.record.present = true) (within : p.offset ≤ x.take.record.lastUsed) {n : Nat}
    (words : n = min (p.offset + p.count) (x.take.record.lastUsed + 1) - p.offset)
    (order : x.config.takeCheck = false ∨
      (p.offset = x.take.record.cursor ∧ p.offset ≠ 0 ∧ ∀ d ∈ x.take.reads, d.number ≠ x.take.record.number) ∨
      (p.offset = 0 ∧ ∀ d ∈ x.take.reads, d.number ≠ x.take.record.number)) :
    Acts .exact r s (State.takeLoop 1 v r)
      { x with
        take := { x.take with
          record :=
            if x.config.takeCheck ∧ p.offset = 0 then { x.take.record with cursor := 0, crc := 0xFFFF }
            else x.take.record
          reads := x.take.reads ++
            [⟨p.requester, p.tag, p.offset, p.count, x.take.record.number,
              decide (x.take.record.lastUsed < p.offset + p.count), n⟩]
          hold := []
          head := .clear } } a (i ++ [x.takeIssue r p p.offset n]) := by
  have here : (v.ring r).take.record.present = true := by rw [acts.ring]; exact present
  have landed : (∀ d ∈ x.take.reads, d.number ≠ x.take.record.number) → (v.ring r).take.readInFlight = false := by
    rw [readInFlight_eq_false_iff, acts.ring]
    exact id
  have served := acts.serveRead p within words
  by_cases restarts : x.config.takeCheck = true ∧ p.offset = 0
  · obtain ⟨on, start⟩ := restarts
    have none : ∀ d ∈ x.take.reads, d.number ≠ x.take.record.number := by
      rcases order with off | ⟨-, above, -⟩ | ⟨-, none⟩
      · rw [on] at off; exact Bool.noConfusion off
      · exact absurd start above
      · exact none
    have judged := judgePresent_restarts (p := p) (by rw [acts.ring]; exact on) (landed none) start
    rw [← judgeTake_present read here] at judged
    have restarted := (acts.modTake (fun t =>
      { t with record := { t.record with cursor := 0, crc := crcStart } })).serveRead p within words
    exact (acts_takeLeft acts judged restarted).cast (by rw [if_pos ⟨on, start⟩]; rfl) rfl rfl
  · have judged : v.judgePresent r p = (v.serveRead r p, none) := by
      rcases order with off | ⟨cursor, above, none⟩ | ⟨start, -⟩
      · exact judgePresent_unchecked (by rw [acts.ring]; exact off)
      · cases check : x.config.takeCheck with
        | false => exact judgePresent_unchecked (by rw [acts.ring]; exact check)
        | true =>
          exact judgePresent_follows (by rw [acts.ring]; exact check) (landed none) above
            (by rw [acts.ring]; exact cursor)
      · exact judgePresent_unchecked (by
          rw [acts.ring]
          exact eq_false_of_ne_true fun on => restarts ⟨on, start⟩)
    rw [← judgeTake_present read here] at judged
    exact (acts_takeLeft acts judged served).cast (by rw [if_neg restarts]; rfl) rfl rfl

end

/-- Settles O37: a read of a present take is served, filled, made to wait or refused, by its offset and by take
check. -/
theorem presentTakesServeReads : Obligations.PresentTakesServeReads := by
  rintro s q r k x words reaches below rfl present wordsIs
  obtain ⟨run, queued⟩ := exec_of_reachesTake reaches (takeAt_below below)
  obtain ⟨taken, -, passed, -, hold⟩ := reaches
  generalize takeQueued (s.enterOutstanding q) r (takeReqOf q k) = v at run queued
  have here : (v.ring r).take.record.present = true := by rw [queued.ring]; exact present
  have serving := not_aborting_of_takeCheck passed
  have stays : ∀ {y : Ring}, y.state = (s.ring r).state ∧ y.take.record.present = true →
      ¬enters y ((s.enterOutstanding q).noDownstream r) := by
    rintro y ⟨state, present⟩ ⟨-, aborting | ⟨-, -, -, absent, -⟩⟩
    · exact serving (state.symm.trans aborting)
    · exact Bool.noConfusion (present.symm.trans absent)
  refine ⟨fun within order => ?_, fun beyond off => ?_, fun on flight => ?_, fun on landed above jumps => ?_⟩
  · have served := acts_serves queued rfl present within wordsIs order
    have settled := served.settle_stays
      (served.idleCondition_of_issue (List.mem_append_right _ (List.mem_singleton_self _)) (beq_self_eq_true r))
    rw [run]
    refine congrArg _ (eq_of_handed_exact (settled.cast ?_ rfl rfl))
    rw [← hold]
    rfl
  · have judged := serveRead_fills (v := v) (r := r) (p := takeReqOf q k) (by rw [queued.ring]; exact beyond)
    have judged : v.judgeTake r (takeReqOf q k) = (v.respondFill r q.requester q.tag q.count, none) := by
      rw [judgeTake_present rfl here, judgePresent_unchecked (by rw [queued.ring]; exact off), judged]
      rfl
    have filled := (acts_fills queued judged).cast (emptied_hold hold) rfl rfl
    have settled := filled.settle_stays (Bool.eq_false_iff.2 (mt filled.idleCondition_iff.1 (stays ⟨rfl, present⟩)))
    rw [run]
    exact congrArg _ (eq_of_answer_exact taken settled)
  · have judged : v.judgeTake r (takeReqOf q k) = (v, some .waiting) := by
      rw [judgeTake_present rfl here]
      refine judgePresent_waits (by rw [queued.ring]; exact on) ?_
      rw [readInFlight_iff, queued.ring]
      exact flight
    have held := acts_takeHeld queued judged
    have settled := held.settle_stays (Bool.eq_false_iff.2 (mt held.idleCondition_iff.1 (stays ⟨rfl, present⟩)))
    rw [run]
    exact congrArg _ (eq_of_held settled)
  · have judged : v.judgeTake r (takeReqOf q k) = (v.refuseTake r (takeReqOf q k) .outOfOrder, none) := by
      rw [judgeTake_present rfl here]
      refine judgePresent_refuses (by rw [queued.ring]; exact on) ?_ above (by rw [queued.ring]; exact jumps)
      rw [readInFlight_eq_false_iff, queued.ring]
      exact landed
    have refused := acts_takeLeft queued judged (queued.louden.refuseTake nofun (takeReqOf q k) .outOfOrder)
    have settled := refused.settle_stays (Bool.eq_false_iff.2 (mt refused.idleCondition_iff.1 (stays ⟨rfl, present⟩)))
    refine ⟨_, run, settled.ring.trans ?_, settled.others, eq_of_answer taken settled⟩
    show ({ s.ring r with
      take := { (s.ring r).take with
        hold := []
        head := .clear
        refusal := ⟨some .outOfOrder, q.requester, k, s.timebase, true⟩ }
      events := (s.ring r).events.report 0x100#18 6 1 } : Ring) = _
    rw [← hold]

end Sys2Proof.Laws

/-! PROOFS. Outcomes of reads that fail (R116) and RELEASE (R117); with O39. -/

namespace Sys2Proof.Laws

open Sys2Proof.Machine

/-! ## An outcome delivered to its owner (R14, R15) -/

section

variable {s : State} {r : RingId} {i : DTag} {o : Owner} {q : Requester} {u : UTag} {g : BitVec 8}
  {timeout : Timer} {c : Instr} {status : Status} {tags : Vector TagEntry 64}

/-- The command that brings an outcome to tag `i` changes the tag's entry and delivers the outcome. -/
theorem exec_outcome (up : s.resetN = true) (busy : s.tags[i] = .busy o q u g timeout)
    (outcome : s.outcomeBy i timeout c status tags) :
    ∃ e data, exec c s = .next ((s.setTag i e).deliver o q u g status data) ∧ s.tags.set i e = tags ∧
      ∀ p, e.busyOf p = false := by
  rcases outcome with ⟨data, rfl, rfl⟩ | ⟨rfl, due, rfl, rfl⟩
  · exact ⟨_, data, exec_downstreamResponse_busy up busy status data, rfl, fun _ => rfl⟩
  · exact ⟨_, [], exec_responseTimeout_busy up busy due, rfl, fun _ => rfl⟩

end

/-- The ring's read list without the pair's entry. -/
def readsWithout (e : TakeEngine) (q : Requester) (u : UTag) : TakeEngine :=
  { e with reads := e.reads.filter (fun e => !(e.requester == q && e.tag == u)) }

section

variable {s v : State} {r : RingId} {q : Requester} {u : UTag} {e : ReadEntry} {x : Ring}

theorem takeOutcome_error (found : (v.ring r).take.reads.find? (fun e => e.requester == q && e.tag == u) = some e)
    (data : List Word) : v.takeOutcome r q u .error data =
      ((v.modTake r (fun t => readsWithout t q u)).takeError r e).judgeTakeWaiting r := by
  unfold State.takeOutcome
  rw [show (v.ring r).take.reads.find? (fun e => e.isPair q u) = some e from found]
  rfl

theorem takeOutcome_ok (found : (v.ring r).take.reads.find? (fun e => e.requester == q && e.tag == u) = some e)
    (data : List Word) : v.takeOutcome r q u .ok data =
      (((v.modTake r (fun t => readsWithout t q u)).countFree e.words data).takeOk r e
        ((v.modTake r (fun t => readsWithout t q u)).receivedWords e.words data)).judgeTakeWaiting r := by
  unfold State.takeOutcome
  rw [show (v.ring r).take.reads.find? (fun e => e.isPair q u) = some e from found]
  rfl

theorem judgeTakeWaiting_of_not (unheld : (v.ring r).take.head ≠ .waiting) : v.judgeTakeWaiting r = v := by
  simp [State.judgeTakeWaiting, unheld]

/-- A read that fails. -/
theorem acts_takeError :
    Acts .loud r v ((v.modTake r (fun t => readsWithout t q u)).takeError r e)
      { v.ring r with
        take := { readsWithout (v.ring r).take q u with
          refusal := ⟨some .downstream, e.requester, e.offset, v.timebase, true⟩ }
        events := (v.ring r).events.report 0x8000#18 14 1 }
      [⟨e.requester, e.tag, .error, []⟩] [] :=
  (((Acts.refl .loud r v).modTake (fun t => readsWithout t q u)).recordTake nofun .downstream e.requester
    e.offset).respondError e.requester e.tag

theorem take_settle (clear : (v.ring r).take.head = .clear) : ((v.settle r).ring r).take = (v.ring r).take := by
  rcases ring_settle v r with same | idle
  · rw [same]
  · rw [idle]
    unfold Ring.atIdle
    rw [← clear]

theorem counters_settle (v : State) (r : RingId) :
    ((v.settle r).ring r).events.counters = (v.ring r).events.counters := by
  rcases ring_settle v r with same | idle
  · rw [same]
  · rw [idle]
    rfl

theorem flags_settle {m : BitVec 18} (h : (v.ring r).events.flags &&& m = m) :
    ((v.settle r).ring r).events.flags &&& m = m :=
  flags_of_kept (moved_settle v r).ring.flags h

end

/-- Settles O39: a read that fails leaves the take; RELEASE hands its header read down and ends the take. -/
theorem failedReadsAndRelease : Obligations.FailedReadsAndRelease := by
  refine ⟨fun s r i q u g timeout e c up busy found hold head failing => ?_,
    fun s q r reaches => ⟨fun present unparked => ?_, fun absent stays => ?_⟩⟩
  · have outcome : ∃ tags, s.outcomeBy i timeout c .error tags := by
      rcases failing with ⟨data, rfl⟩ | ⟨rfl, due⟩
      · exact ⟨_, .inl ⟨data, rfl, rfl⟩⟩
      · exact ⟨_, .inr ⟨rfl, due, rfl, rfl⟩⟩
    obtain ⟨tags, outcome⟩ := outcome
    obtain ⟨entry, data, run, -, -⟩ := exec_outcome up busy outcome
    have acts := acts_takeError (v := s.setTag i entry) (r := r) (q := q) (u := u) (e := e)
    have delivered : (s.setTag i entry).deliver (.take r) q u g .error data =
        ((((s.setTag i entry).modTake r (fun t => readsWithout t q u)).takeError r e)).settle r := by
      show ((s.setTag i entry).takeOutcome r q u .error data).settle r = _
      rw [takeOutcome_error (v := s.setTag i entry) found, judgeTakeWaiting_of_not]
      rw [acts.ring]
      exact ne_of_eq_of_ne head nofun
    rw [delivered] at run
    generalize ((s.setTag i entry).modTake r (fun t => readsWithout t q u)).takeError r e = v at acts run
    refine ⟨_, run, ?_, ?_, flags_settle ?_, ?_⟩
    · rw [upResponses_settle]
      exact acts.upResponses
    · rw [take_settle (by rw [acts.ring]; exact head), acts.ring]
      rfl
    · rw [acts.ring]
      exact flags_report _ _ _ _
    · rw [counters_settle, acts.ring]
      rfl
  · obtain ⟨run, queued⟩ := exec_of_reachesTake reaches (p := ⟨q.requester, q.tag, (s.ring r).config.slotWords,
      q.count, true⟩) (by unfold takeAt; rw [decide_eq_true rfl])
    obtain ⟨-, -, -, -, hold⟩ := reaches
    generalize takeQueued (s.enterOutstanding q) r _ = v at run queued
    have judged := judgeTake_release (r := r) (v := v)
      (p := ⟨q.requester, q.tag, (s.ring r).config.slotWords, q.count, true⟩) rfl
    have released := (queued.handRead ⟨q.requester, q.tag, (s.ring r).config.slotWords, q.count, true⟩ 0 1
      false).clearTake
    rw [judgeRelease_present (by rw [queued.ring]; exact present), State.releaseTake,
      roomAppears_unparked (by rw [released.ring]; exact unparked)] at judged
    have left := acts_takeLeft queued judged released
    have settled := left.settle_stays
      (left.idleCondition_of_issue (List.mem_append_right _ (List.mem_singleton_self _)) (beq_self_eq_true r))
    rw [run]
    refine congrArg _ (eq_of_handed_exact (settled.cast ?_ rfl rfl))
    show ({ s.ring r with take := { (s.ring r).take with
      record := { TakeRecord.reset with number := (s.ring r).take.record.number }
      reads := (s.ring r).take.reads ++ [⟨q.requester, q.tag, (s.ring r).config.slotWords, q.count,
        (s.ring r).take.record.number, false, 1⟩]
      hold := []
      head := .clear } } : Ring) = _
    rw [← hold]
  · obtain ⟨run, queued⟩ := exec_of_reachesTake reaches (p := ⟨q.requester, q.tag, (s.ring r).config.slotWords,
      q.count, true⟩) (by unfold takeAt; rw [decide_eq_true rfl])
    obtain ⟨taken, -, -, -, hold⟩ := reaches
    have judged := judgeTake_release (r := r) (v := takeQueued (s.enterOutstanding q) r
      ⟨q.requester, q.tag, (s.ring r).config.slotWords, q.count, true⟩)
      (p := ⟨q.requester, q.tag, (s.ring r).config.slotWords, q.count, true⟩) rfl
    rw [judgeRelease_absent (by rw [queued.ring]; exact absent)] at judged
    have filled := (acts_fills queued judged).cast (emptied_hold hold) rfl rfl
    have settled := filled.settle_stays (filled.idleCondition_of_fields stays rfl rfl rfl rfl rfl rfl)
    rw [run]
    exact congrArg _ (eq_of_answer_exact taken settled)

end Sys2Proof.Laws

/-! PROOFS. The park timers (R52, R68, R107, R119): the parked request leaves the head, and the queue behind it is
judged; with O29. -/

namespace Sys2Proof.Laws

open Sys2Proof.Machine

/-! ## The take hold queue of an empty MESSAGE ring -/

/-- The ring with `hold` as its take hold queue, of which nothing is parked or waits. -/
def withReads (x : Ring) (hold : List TakeReq) : Ring :=
  { x with take := { x.take with hold := hold, head := .clear } }

section

variable {s v : State} {r : RingId} {i : List Issue}

/-- What `readsJudged` says of the judging of a request. -/
theorem judgeTake_empty {x : Ring} {hold : List TakeReq} (ring : v.ring r = withReads x hold)
    (message : x.config.kind = .message) (empty : x.occ = 0) (absent : x.take.record.present = false)
    (p : TakeReq) :
    v.judgeTake r p =
      if p.release = false ∧ p.offset = 0 ∧ x.config.parkTimeout ≠ 0 ∧ x.state = .running then
        (v, some (.parked ⟨v.timebase, x.config.parkTimeout.toNat⟩))
      else (v.respondFill r p.requester p.tag (if p.release then 1 else p.count), none) := by
  have none : (v.ring r).take.record.present = false := by rw [ring]; exact absent
  cases release : p.release with
  | true =>
    rw [if_neg (fun h => Bool.noConfusion h.1), judgeTake_release release, judgeRelease_absent none]
    rfl
  | false =>
    rw [judgeTake_absent release none]
    by_cases above : p.offset ≠ 0
    · rw [if_neg (fun h => above h.2.1), judgeAbsent_above above]
      rfl
    · have start := not_not.1 above
      have published : (v.ring r).occ = 0 := by rw [ring]; exact empty
      rw [judgeAbsent_message start (by rw [ring]; exact message)]
      split
      next parks =>
        have parked := judgeMessage_parks (p := p) published (by rw [ring]; exact parks.2.2.1)
          (by rw [ring]; exact parks.2.2.2)
        rw [ring] at parked
        exact parked
      next never =>
        refine judgeMessage_fills published ?_
        rw [ring]
        by_contra both
        rw [not_or, not_not] at both
        exact never ⟨rfl, start, both.1, both.2⟩

/-- The loop is `readsJudged` (R107). -/
theorem acts_readsJudged {x : Ring} (message : x.config.kind = .message) (empty : x.occ = 0)
    (absent : x.take.record.present = false) (hold : List TakeReq) : ∀ {v : State} {a : List UpResponse},
    Acts .loud r s v (withReads x hold) a i →
    Acts .loud r s (State.takeLoop hold.length v r) (x.readsJudged s.timebase hold).1
      (a ++ (x.readsJudged s.timebase hold).2) i := by
  induction hold with
  | nil =>
    intro v a acts
    exact acts.cast rfl (List.append_nil a).symm rfl
  | cons p rest ih =>
    intro v a acts
    have judged := judgeTake_empty acts.ring message empty absent p
    have held : (v.ring r).take.hold = p :: rest := by rw [acts.ring]; rfl
    unfold Ring.readsJudged
    split
    next parks =>
      rw [if_pos parks] at judged
      rw [List.length_cons, takeLoop_held held judged, ← acts.timebase]
      exact (acts.modTake _).cast rfl (List.append_nil a).symm rfl
    next leaves =>
      rw [if_neg leaves] at judged
      rw [List.length_cons, takeLoop_left held judged]
      have left := (acts.respondFill p.requester p.tag (if p.release then 1 else p.count)).modTake
        (fun p => { p with hold := p.hold.tail })
      exact (ih left).cast rfl (List.append_assoc _ _ _) rfl

/-- What the judging of the queue leaves of the ring. -/
theorem readsJudged_keeps (now : Time) (x : Ring) (hold : List TakeReq) :
    (x.readsJudged now hold).1 = { x with
      take := { x.take with
        hold := (x.readsJudged now hold).1.take.hold
        head := (x.readsJudged now hold).1.take.head } } := by
  induction hold with
  | nil => rfl
  | cons p rest ih =>
    unfold Ring.readsJudged
    split
    · rfl
    · exact ih

/-- On a ring that drains no read parks. -/
theorem readsJudged_empties (now : Time) (x : Ring) (draining : x.state = .draining) (hold : List TakeReq) :
    (x.readsJudged now hold).1.take.hold = [] := by
  induction hold with
  | nil => rfl
  | cons p rest ih =>
    unfold Ring.readsJudged
    rw [if_neg (fun parks => RingState.noConfusion (draining.symm.trans parks.2.2.2))]
    exact ih

/-- The parked read is answered with fill words, and the queue behind it stands to be judged. -/
theorem acts_fillParked {p : TakeReq} {rest : List TakeReq} (held : (s.ring r).take.hold = p :: rest) :
    ∃ w, s.fillParked r = State.takeLoop rest.length w r ∧
      Acts .exact r s w (withReads (s.ring r) rest)
        [⟨p.requester, p.tag, .ok, List.replicate p.count (s.ring r).config.fillWord⟩] [] := by
  have left := ((Acts.refl .exact r s).respondFill p.requester p.tag p.count).modTake
    (fun p => { p with hold := p.hold.tail })
  obtain ⟨cleared, loop⟩ := acts_judgeTakeQueue left
  have behind : (s.ring r).take.hold.tail = rest := by rw [held]; rfl
  refine ⟨_, ?_, cleared.cast ?_ rfl rfl⟩
  · unfold State.fillParked
    rw [held]
    exact loop.trans (by rw [← behind])
  · rw [← behind]
    rfl

end

/-- The Ring Table's test behind an event that reaches the interrupt line at most. -/
theorem settle_cases {s v : State} {r : RingId} {y : Ring} {a : List UpResponse}
    (acts : Acts .loud r s v y a []) {meets : Prop} (condition : enters y (s.noDownstream r) ↔ meets) :
    (meets → (v.settle r).ring r = y.atIdle ∧ SourceLost s (v.settle r) r) ∧
      (¬meets → (v.settle r).ring r = y ∧ (v.settle r).survey = s.survey ∧
        (v.settle r).globalFlags = s.globalFlags) ∧
      (∀ p, p ≠ r → (v.settle r).ring p = s.ring p) ∧
      v.settle r = { s.answered a with
        rings := (v.settle r).rings
        survey := (v.settle r).survey
        globalFlags := (v.settle r).globalFlags
        driver := (v.settle r).driver } := by
  have idle := acts.idleCondition_iff.trans condition
  by_cases h : meets
  · have entered := acts.expose.settle_enters (idle.2 h)
    have frame := entered.eq_of_seen nofun
    rw [List.append_nil] at frame
    exact ⟨fun _ => ⟨entered.ring, acts.sourceLost_settle (idle.2 h)⟩, fun not => absurd h not,
      entered.others, frame⟩
  · have stays := acts.settle_stays (Bool.eq_false_iff.2 (mt idle.1 h))
    have frame := stays.eq_of_seen nofun
    rw [List.append_nil] at frame
    exact ⟨fun yes => absurd yes h, fun _ => ⟨stays.ring, stays.unseen nofun nofun⟩, stays.others, frame⟩

/-- Settles O29: each expiry lets the head go and judges the queue behind it. -/
theorem parkExpiriesEndTheWait : Obligations.ParkExpiriesEndTheWait := by
  refine ⟨fun s r timer q rest up parked hold => ⟨fun early => ?_, fun due => ?_⟩,
    fun s r timer q rest up parked hold => ⟨fun early => ?_, fun due => ?_⟩⟩
  · exact congrArg Host.Outcome.next ((whileUp_of_up up _).trans
      (if_neg (by rw [parked]; simp [HeadHold.timer, timerDue_some, early])))
  · have run : exec (.putParkExpiry r) s = .next ((s.refuseParked r .parkExpired).settle r) :=
      congrArg Host.Outcome.next ((whileUp_of_up up _).trans
        (if_pos (by rw [parked]; simp [HeadHold.timer, timerDue_some, due])))
    obtain ⟨w, judged, refused⟩ := acts_refuseParked (Acts.refl .loud r s) hold .parkExpired
    rw [judged] at run
    have judging := inner_putLoop rest.length w r
    have moved := judging.moved.trans (moved_settle (State.putLoop rest.length w r) r)
    obtain ⟨more, grown⟩ := upResponses_of_moved moved refused.upResponses
    have stays : (s.ring r).state = .running → (State.putLoop rest.length w r).settle r =
        State.putLoop rest.length w r := fun running =>
      settle_of_not (idleCondition_of_state (.inr (by rw [judging.ring.state, refused.ring]; exact running)))
    refine ⟨_, more, run, grown.trans (List.append_assoc _ _ _), ?_, fun alone running => ?_,
      fun running closed full judged is => ?_⟩
    · refine flags_of_kept moved.ring.flags ?_
      rw [refused.ring]
      exact flags_report _ _ _ _
    · rw [stays running] at grown ⊢
      subst alone
      exact ⟨List.self_eq_append_right.1 (refused.upResponses.symm.trans grown), refused.ring, refused.others⟩
    · rw [stays running]
      have looped := acts_queueJudged rest refused closed (.inr full)
      rw [← is] at looped
      refine ⟨looped.ring, looped.others, ?_⟩
      have frame := looped.eq_of_loud nofun nofun
      rw [List.append_nil] at frame
      exact frame
  · exact congrArg Host.Outcome.next ((whileUp_of_up up _).trans
      (if_neg (by rw [parked]; simp [HeadHold.timer, timerDue_some, early])))
  · have run : exec (.takeParkExpiry r) s = .next ((s.fillParked r).settle r) :=
      congrArg Host.Outcome.next ((whileUp_of_up up _).trans
        (if_pos (by rw [parked]; simp [HeadHold.timer, timerDue_some, due])))
    obtain ⟨w, judged, filled⟩ := acts_fillParked hold
    rw [judged] at run
    have judging := inner_takeLoop rest.length w r
    have moved := judging.moved.trans (moved_settle (State.takeLoop rest.length w r) r)
    obtain ⟨more, grown⟩ := upResponses_of_moved moved filled.upResponses
    refine ⟨_, more, run, grown.trans (List.append_assoc _ _ _), fun alone running => ?_,
      fun message empty absent serving judged is => ?_⟩
    · rw [settle_of_not (idleCondition_of_state
        (.inr (by rw [judging.ring.state, filled.ring]; exact running)))] at grown ⊢
      subst alone
      exact ⟨List.self_eq_append_right.1 (filled.upResponses.symm.trans grown), filled.ring, filled.others⟩
    · have looped := acts_readsJudged message empty absent rest filled.louden
      have kept := readsJudged_keeps s.timebase (s.ring r) rest
      have empties := fun draining => readsJudged_empties s.timebase (s.ring r) draining rest
      rw [← is] at looped kept empties
      refine settle_cases looped (Iff.intro ?_ ?_)
      · rw [kept]
        rintro ⟨clear, aborting | ⟨draining, phase, -, -, held, -⟩⟩
        · have serves : (s.ring r).state ≠ .aborting := by
            rcases serving with state | state <;> rw [state] <;> nofun
          exact absurd aborting serves
        · exact ⟨draining, phase, held, clear⟩
      · rintro ⟨draining, phase, held, clear⟩
        have emptied := empties draining
        rw [kept] at emptied ⊢
        exact ⟨clear, .inr ⟨draining, phase, empty, absent, held, emptied⟩⟩

end Sys2Proof.Laws

/-! PROOFS. The start of a take (R110, R127, R128, R142, R152) and the survey's sample (R155 to R157). -/

namespace Sys2Proof.Laws

open Sys2Proof.Machine

/-! ## The survey's sample -/

theorem goOn_eq (v : Survey) (now : Time) : v.goOn now =
    if v.setup.trigger = .commit ∨ v.setup.trigger = .take then v
    else
      { v with
        state := .sampling
        delayTimer := .none
        intervalTimer := .some ⟨now, v.setup.interval.toNat⟩ } := by
  unfold Survey.goOn
  cases trigger : v.setup.trigger <;> simp [armTimer]

theorem newCycle_eq (v : Survey) (now : Time) : v.newCycle now =
    { v with
      state :=
        if (v.setup.trigger = .syncRise ∨ v.setup.trigger = .syncFall) ∧ v.setup.holdoff = false then .armed
        else .sampling
      acc := Accumulators.zero
      delayTimer := .none
      intervalTimer :=
        if v.setup.trigger = .timer ∨
          ((v.setup.trigger = .syncRise ∨ v.setup.trigger = .syncFall) ∧ v.setup.holdoff = true) then
          .some ⟨now, v.setup.interval.toNat⟩
        else .none } := by
  unfold Survey.newCycle
  cases trigger : v.setup.trigger <;> cases holdoff : v.setup.holdoff <;> simp [armTimer, trigger, holdoff]

theorem sampledTo_surveySample (s : State) (n : Nat) : SampledTo s.survey s.globalFlags s.timebase n
    (s.surveySample n).survey (s.surveySample n).globalFlags := by
  rintro acc results again rfl rfl rfl
  unfold State.surveySample
  dsimp only
  refine ⟨fun outside => ?_, fun low high => ⟨fun more => ?_, fun done once => ?_, fun done again => ?_⟩⟩
  · rw [if_pos outside]
    exact ⟨rfl, rfl⟩
  · have unfinished : ¬s.survey.setup.samples.toNat ≤ (s.survey.acc.add n).count := Nat.not_le.2 more
    rw [if_neg (by omega), if_neg unfinished]
    refine ⟨rfl, ?_⟩
    show { s.survey.goOn s.timebase with acc := s.survey.acc.add n } = _
    rw [goOn_eq]
    split <;> rfl
  · have finished : s.survey.setup.samples.toNat ≤ (s.survey.acc.add n).count := done
    rw [if_neg (by omega), if_pos finished, once]
    exact ⟨rfl, rfl⟩
  · have finished : s.survey.setup.samples.toNat ≤ (s.survey.acc.add n).count := done
    rw [if_neg (by omega), if_pos finished, again]
    refine ⟨rfl, ?_⟩
    show { s.survey.newCycle s.timebase with results := (s.survey.acc.add n).results false } = _
    rw [newCycle_eq]
    rfl

theorem surveySample_rest (s : State) (n : Nat) : s.surveySample n = { s with
    survey := (s.surveySample n).survey
    globalFlags := (s.surveySample n).globalFlags
    driver := (s.surveySample n).driver } := by
  unfold State.surveySample
  dsimp only
  repeat' split
  all_goals rfl

theorem Acts.surveySample {k : Scope} {r : RingId} {s t : State} {x : Ring} {a : List UpResponse}
    {i : List Issue} (h : Acts k r s t x a i) (reach : k = .seen ∨ k = .wide) (n : Nat) :
    Acts k r s (t.surveySample n) x a i := by
  rw [surveySample_rest]
  exact h.watched reach _ _ _

theorem sampledTo_congr {v v' : Survey} {f f' : BitVec 5} {now : Time} {n : Nat} {s t : State}
    (h : SampledTo s.survey s.globalFlags s.timebase n t.survey t.globalFlags) (survey : s.survey = v)
    (flags : s.globalFlags = f) (time : s.timebase = now) (survey' : t.survey = v') (flags' : t.globalFlags = f') :
    SampledTo v f now n v' f' := by
  subst survey flags time survey' flags'
  exact h

theorem surveyTakeStart_eq (s : State) (r : RingId) (occ dwell : Nat) : s.surveyTakeStart r occ dwell =
    if s.survey.state = .sampling ∧ s.survey.setup.trigger = .take ∧ s.survey.setup.source = r then
      s.surveySample (if s.survey.setup.quantity = .occupancy then occ else min dwell 65535)
    else s := by
  unfold State.surveyTakeStart
  dsimp only
  cases s.survey.setup.quantity <;> rfl

theorem Acts.surveyTakeStart {k : Scope} {r : RingId} {s t : State} {x : Ring} {a : List UpResponse}
    {i : List Issue} (h : Acts k r s t x a i) (reach : k = .seen ∨ k = .wide) (occ dwell : Nat) :
    Acts k r s (t.surveyTakeStart r occ dwell) x a i := by
  rw [surveyTakeStart_eq]
  split
  · exact h.surveySample reach _
  · exact h

/-- The sample of a take start (R152). -/
theorem takeSampled_surveyTakeStart (s : State) (r : RingId) (occ : Nat) (e : Stamp) :
    TakeSampled s (s.surveyTakeStart r occ (elapsed s.timebase e.commitTime)) r occ e := by
  rw [surveyTakeStart_eq]
  by_cases watched : s.survey.state = .sampling ∧ s.survey.setup.trigger = .take ∧ s.survey.setup.source = r
  · rw [if_pos watched]
    exact ⟨fun _ => sampledTo_surveySample s _, fun not => absurd watched not⟩
  · rw [if_neg watched]
    exact ⟨fun yes => absurd yes watched, fun _ => ⟨rfl, rfl⟩⟩

theorem takeSampled_congr {s t s' t' : State} {r : RingId} {occ : Nat} {e : Stamp} (h : TakeSampled s t r occ e)
    (survey : s'.survey = s.survey) (flags : s'.globalFlags = s.globalFlags) (time : s'.timebase = s.timebase)
    (survey' : t'.survey = t.survey) (flags' : t'.globalFlags = t.globalFlags) : TakeSampled s' t' r occ e := by
  unfold TakeSampled
  rw [survey, flags, time, survey', flags']
  exact h

/-! ## The take record -/

theorem earlyAt_iff (x : Ring) (now : Time) : x.earlyAt now = true ↔ x.EarlyAt now := by
  unfold Ring.earlyAt Ring.EarlyAt elapsed
  cases x.cadence.lastStart <;> simp

/-- The take number that follows (R110). -/
theorem nextNumber_of {t : TakeEngine} {number : BitVec 8} (next : t.NumbersNext number) :
    t.nextNumber = number := by
  obtain ⟨free, skipped, small, rfl, held⟩ := next
  unfold TakeEngine.nextNumber
  have found : ((List.range 256).map (fun i => t.record.number + 1 + BitVec.ofNat 8 i)).find?
      (fun n => !t.reads.any (fun e => e.number == n)) = some (t.record.number + 1 + BitVec.ofNat 8 skipped) := by
    rw [List.find?_map]
    have first : (List.range 256).find? ((fun n => !t.reads.any (fun e => e.number == n)) ∘
        (fun i => t.record.number + 1 + BitVec.ofNat 8 i)) = some skipped := by
      rw [List.find?_range_eq_some]
      refine ⟨?_, List.mem_range.2 small, fun j below => ?_⟩
      · simpa using fun d mem => free d mem
      · obtain ⟨d, mem, number⟩ := held j below
        simpa using ⟨d, mem, number⟩
    rw [first]
    rfl
  dsimp only
  rw [found]
  rfl

theorem lastOfStamp_eq (c : RingConfig) (e : Stamp) : c.lastUsed e.length = c.lastOfStamp e := by
  unfold RingConfig.lastUsed RingConfig.lastOfStamp RingConfig.trailer
  cases c.checkMode <;> rfl

namespace Acts

variable {k : Scope} {r : RingId} {s t : State} {x : Ring} {a : List UpResponse} {i : List Issue}

/-- A take start reported to the Cadence Monitor (R142, R145). -/
theorem cadenceStart (h : Acts k r s t x a i) (loud : k ≠ .exact) {early : Bool}
    (is : early = true ↔ x.EarlyAt s.timebase) :
    Acts k r s (t.cadenceStart r) (x.startReported s.timebase early) a i := by
  have earlyIs : x.earlyAt s.timebase = early := by rw [Bool.eq_iff_iff, is, earlyAt_iff]
  have started := h.modCadence (fun _ => x.cadenceAfterStart s.timebase)
  unfold State.cadenceStart
  rw [h.ring, h.timebase]
  dsimp only
  rw [earlyIs]
  have ring : (if early then { x with
        cadence := x.cadenceAfterStart s.timebase, events := x.events.report 0x2000#18 11 1 }
      else { x with cadence := x.cadenceAfterStart s.timebase }) = x.startReported s.timebase early := by
    unfold Ring.cadenceAfterStart Ring.startReported
    rw [earlyIs]
    cases early <;> rfl
  cases early
  · exact started.cast ring rfl rfl
  · exact (started.report loud .cadence .cadenceEarly 1).cast ring rfl rfl

end Acts

/-! ## Stamp entries -/

theorem stampAt_congr {s t : State} {r : RingId} (blocks : (t.ring r).blocks = (s.ring r).blocks)
    (stamps : t.stamps = s.stamps) (p : Nat) : t.stampAt r p = s.stampAt r p := by
  unfold State.stampAt Ring.stampIndex
  rw [blocks, stamps]

section

variable {k : Scope} {s v : State} {r : RingId} {x : Ring} {a : List UpResponse} {i : List Issue}

theorem Acts.stampAt (acts : Acts k r s v x a i) (narrow : k ≠ .wide) (blocks : x.blocks = (s.ring r).blocks)
    (p : Nat) : v.stampAt r p = s.stampAt r p :=
  stampAt_congr (by rw [acts.ring, blocks]) (acts.quiet narrow).1 p

/-! ## The start of a take (R110) -/

/-- The ring once a take has been started at position `p`, before its read is served. -/
def takeStarted (x : Ring) (p : Nat) (e : Stamp) (number : BitVec 8) (replay : Bool) (now : Time)
    (early : Bool) : Ring :=
  { x.startReported now early with
    take := { x.take with
      record := ⟨true, p, e.length, x.config.lastOfStamp e, number, replay, now, 0, 0xFFFF⟩ } }

theorem takeRecordAt_eq {number : BitVec 8} (next : x.take.NumbersNext number) (p : Nat) (e : Stamp)
    (replay : Bool) (now : Time) : x.takeRecordAt p e replay now =
      ⟨true, p, e.length, x.config.lastOfStamp e, number, replay, now, 0, 0xFFFF⟩ := by
  unfold Ring.takeRecordAt
  rw [nextNumber_of next, lastOfStamp_eq]
  rfl

/-- The state after steps 2 and 3 of R110: the record and the report to the Cadence Monitor. -/
def takeReported (v : State) (r : RingId) (record : TakeRecord) : State :=
  (v.modTake r (fun t => { t with record := record })).cadenceStart r

theorem acts_takeReported (acts : Acts k r s v x a i) (loud : k ≠ .exact) {number : BitVec 8}
    (next : x.take.NumbersNext number) {early : Bool} (is : early = true ↔ x.EarlyAt s.timebase) (p : Nat)
    (e : Stamp) (replay : Bool) :
    Acts k r s (takeReported v r (x.takeRecordAt p e replay s.timebase))
      (takeStarted x p e number replay s.timebase early) a i := by
  have started := (acts.modTake (fun t => { t with record := x.takeRecordAt p e replay s.timebase })).cadenceStart
    loud (early := early) is
  rw [takeRecordAt_eq next] at started ⊢
  exact started

theorem startTake_replay (p : Nat) : v.startTake r p true =
    takeReported v r ((v.ring r).takeRecordAt p (v.stampAt r p) true v.timebase) := rfl

theorem startTake_head (p : Nat) : v.startTake r p false =
    (takeReported v r ((v.ring r).takeRecordAt p (v.stampAt r p) false v.timebase)).surveyTakeStart r
      (v.ring r).occ (elapsed (takeReported v r ((v.ring r).takeRecordAt p (v.stampAt r p) false
        v.timebase)).timebase (v.stampAt r p).commitTime) := rfl

/-- A replay of the retained slot (R128). -/
theorem acts_replay (acts : Acts .loud r s v x a i) (blocks : x.blocks = (s.ring r).blocks)
    {number : BitVec 8} (next : x.take.NumbersNext number) {early : Bool}
    (is : early = true ↔ x.EarlyAt s.timebase) {p : Nat}
    (retained : p = (x.t + x.config.slots - 1) % x.config.slots) {e : Stamp} (entry : e = s.stampAt r p) :
    Acts .loud r s (v.replay r)
      { takeStarted x p e number true s.timebase early with
        events := (x.startReported s.timebase early).events.report 0x400#18 9 1 } a i := by
  have position : (v.ring r).retainedPosition = p := by rw [acts.ring, retained]; rfl
  have started := acts_takeReported acts nofun next is p e true
  unfold State.replay
  rw [position, startTake_replay, acts.ring, acts.timebase, acts.stampAt nofun blocks, ← entry]
  exact started.report nofun .slipReplay .replays 1

/-- A take start on the head slot of a ring, the timer for the next head still to be armed (R110). -/
theorem acts_startHead (acts : Acts .loud r s v x a i) (blocks : x.blocks = (s.ring r).blocks)
    {number : BitVec 8} (next : x.take.NumbersNext number) {early : Bool}
    (is : early = true ↔ x.EarlyAt s.timebase) {p : Nat} {e : Stamp} (entry : e = s.stampAt r p) :
    Acts .seen r s (v.startTake r p false) (takeStarted x p e number false s.timebase early) a i ∧
      TakeSampled s (v.startTake r p false) r x.occ e := by
  have started := acts_takeReported acts nofun next is p e false
  obtain ⟨survey, flags⟩ := started.unseen nofun nofun
  have time := started.timebase
  rw [startTake_head, acts.ring, acts.timebase, acts.stampAt nofun blocks, ← entry]
  exact ⟨started.expose.surveyTakeStart (.inl rfl) _ _,
    takeSampled_congr (takeSampled_surveyTakeStart _ r x.occ e) survey.symm flags.symm time.symm rfl rfl⟩

end

end Sys2Proof.Laws

/-! PROOFS. Heads past their limit (R131, R132). -/

namespace Sys2Proof.Laws

open Sys2Proof.Machine

/-! ## The heads past their limit (R131, R132) -/

/-- The ring once `n` heads have departed as AGED_OUT and the timer stands at `timer`. -/
def agedOut (x : Ring) (n : Nat) (timer : Option Timer) : Ring :=
  { x with
    t := (x.t + n) % x.config.slots
    occ := x.occ - n
    retained := x.retained || decide (n ≠ 0)
    ageTimer := timer
    events := reportTimes x.events 0x800#18 10 n }

theorem agedOut_zero {x : Ring} (inside : x.t % x.config.slots = x.t) (timer : Option Timer) :
    agedOut x 0 timer = { x with ageTimer := timer } := by
  unfold agedOut
  rw [Nat.add_zero, inside, reportTimes_zero]
  simp

/-- One head aged out, then `n` more. -/
theorem agedOut_succ {x : Ring} (paced : x.config.kind = .paced) (n : Nat) (timer : Option Timer) :
    agedOut { x.departN 1 with events := x.events.report 0x800#18 10 1 } n timer = agedOut x (n + 1) timer := by
  unfold agedOut Ring.departN
  simp only [reportTimes_report, Nat.mod_add_mod, Nat.sub_sub, paced]
  rw [show x.t + 1 + n = x.t + (n + 1) by omega, Nat.add_comm 1 n]
  simp

section

variable {s v : State} {r : RingId} {x : Ring} {a : List UpResponse} {i : List Issue} {k : Scope}

theorem agesOut_iff (x : Ring) : x.agesOut = true ↔ x.config.kind = .paced ∧ x.config.ageLimit ≠ 0 := by
  simp [Ring.agesOut]

theorem acts_armAge_none (acts : Acts k r s v x a i) (none : x.occ = 0 ∨ x.agesOut = false) (fuel : Nat) :
    Acts k r s (State.armAge fuel v r) { x with ageTimer := .none } a i := by
  have cleared := acts.modRing (fun x => { x with ageTimer := .none })
  cases fuel with
  | zero => exact cleared
  | succ fuel =>
    unfold State.armAge
    rw [acts.ring]
    dsimp only
    rw [if_pos (none.imp_right (by simp [·]))]
    exact cleared

theorem acts_ageOutHead (acts : Acts .loud r s v x a i) :
    Acts .loud r s (v.ageOutHead r) { x.departN 1 with events := x.events.report 0x800#18 10 1 } a i :=
  (acts.modRing (fun x => x.departN 1)).report nofun .agedOut .agedOut 1

/-- The heads looked at one after another; the first that is not past its limit keeps the timer. -/
theorem acts_armAge (fuel : Nat) : ∀ {v : State} {x : Ring}, Acts .loud r s v x a i → x.agesOut = true →
    x.t % x.config.slots = x.t → x.blocks = (s.ring r).blocks → x.occ < fuel →
    ∃ n ≤ x.occ,
      (∀ j < n, x.config.ageLimit.toNat ≤
        (s.timebase - (s.stampAt r ((x.t + j) % x.config.slots)).commitTime).toNat) ∧
      (n < x.occ → (s.timebase - (s.stampAt r ((x.t + n) % x.config.slots)).commitTime).toNat <
        x.config.ageLimit.toNat) ∧
      Acts .loud r s (State.armAge fuel v r)
        (agedOut x n (if n = x.occ then none
          else some ⟨(s.stampAt r ((x.t + n) % x.config.slots)).commitTime, x.config.ageLimit.toNat⟩)) a i := by
  induction fuel with
  | zero => exact fun _ _ _ _ small => absurd small (Nat.not_lt_zero _)
  | succ fuel ih =>
    intro v x acts ages inside blocks small
    obtain ⟨paced, -⟩ := (agesOut_iff x).1 ages
    by_cases empty : x.occ = 0
    · refine ⟨0, Nat.zero_le _, nofun, fun below => absurd empty below.ne', ?_⟩
      rw [if_pos empty.symm, agedOut_zero inside]
      exact acts_armAge_none acts (.inl empty) _
    · have step : State.armAge (fuel + 1) v r =
          if (x.config.ageTimerFrom (s.stampAt r x.t).commitTime).due s.timebase then
            State.armAge fuel (v.ageOutHead r) r
          else v.modRing r (fun y => { y with
            ageTimer := .some (x.config.ageTimerFrom (s.stampAt r x.t).commitTime) }) := by
        rw [State.armAge, acts.ring, acts.timebase, acts.stampAt nofun blocks]
        exact if_neg (by simp [empty, ages])
      rw [step]
      split
      next due =>
        have aged := acts_ageOutHead acts
        obtain ⟨n, within, past, next, armed⟩ := ih aged ages (Nat.mod_mod _ _) blocks
          (by show x.occ - 1 < fuel; omega)
        have shift : ∀ j, ((x.departN 1).t + j) % (x.departN 1).config.slots = (x.t + (j + 1)) % x.config.slots :=
            fun j => by
          show ((x.t + 1) % x.config.slots + j) % x.config.slots = _
          rw [Nat.mod_add_mod, Nat.add_assoc, Nat.add_comm 1 j]
        have fewer : (x.departN 1).occ = x.occ - 1 := rfl
        have config : (x.departN 1).config = x.config := rfl
        refine ⟨n + 1, by have := within; simp only [fewer] at this; omega, fun j below => ?_,
          fun below => ?_, ?_⟩
        · cases j with
          | zero =>
            rw [Nat.add_zero, inside]
            exact of_decide_eq_true due
          | succ j =>
            have this := past j (by omega)
            simp only [shift] at this
            exact this
        · have this := next (by simp only [fewer]; omega)
          simp only [shift] at this
          exact this
        · refine armed.cast ?_ rfl rfl
          rw [agedOut_succ paced]
          simp only [shift, fewer]
          have same : (n = x.occ - 1) ↔ n + 1 = x.occ := by omega
          simp only [same]
          rfl
      next young =>
        refine ⟨0, Nat.zero_le _, nofun, fun _ => ?_, ?_⟩ <;> rw [Nat.add_zero, inside]
        · exact Nat.not_le.1 (mt decide_eq_true young)
        · rw [if_neg (Ne.symm empty), agedOut_zero inside]
          exact acts.modRing _

end

end Sys2Proof.Laws

/-! PROOFS. Takes that a read starts (R109, R110, R113, R127 to R129) and the expiry of the head's age (R132); with
O35, O41 and O42. -/

namespace Sys2Proof.Laws

open Sys2Proof.Machine

/-! ## The head taken, and the timer for the next one (R110, R131) -/

section

variable {k k' : Scope} {s v w : State} {r : RingId} {x y : Ring} {q : TakeReq} {a b : List UpResponse}
  {i j : List Issue} {e : Stamp} {number : BitVec 8} {early : Bool}

/-- No head is left to age. -/
theorem acts_rearmAge_none (acts : Acts k r s v x a i) (none : x.occ = 0 ∨ x.agesOut = false) :
    Acts k r s (v.rearmAge r) { x with ageTimer := .none } a i := acts_armAge_none acts none _

/-- What a rearming leaves of the survey. -/
theorem takeSampled_rearmAge {z : Ring} (sampled : TakeSampled s v r y.occ e)
    (rearmed : Acts .loud r v (v.rearmAge r) z a i) : TakeSampled s (v.rearmAge r) r y.occ e := by
  obtain ⟨survey, flags⟩ := rearmed.unseen nofun nofun
  exact takeSampled_congr sampled rfl rfl rfl survey flags

/-- The head is taken, and none is left to age. -/
theorem acts_takeHead_alone (acts : Acts .loud r s v x a i) (blocks : x.blocks = (s.ring r).blocks)
    (next : x.take.NumbersNext number) (is : early = true ↔ x.EarlyAt s.timebase) (entry : e = s.stampAt r x.t)
    (none : x.occ - 1 = 0 ∨ x.agesOut = false) :
    Acts .seen r s (v.takeHead r)
        { takeStarted (x.departN 1) x.t e number false s.timebase early with ageTimer := .none } a i ∧
      TakeSampled s (v.takeHead r) r (x.occ - 1) e := by
  obtain ⟨started, sampled⟩ := acts_startHead (acts.modRing (fun x => x.departN 1)) blocks next is entry
  have run : v.takeHead r = ((v.modRing r (fun x => x.departN 1)).startTake r x.t false).rearmAge r := by
    unfold State.takeHead
    rw [acts.ring]
  have alone := acts_rearmAge_none ((Acts.refl .loud r _).cast started.ring rfl rfl) none
  rw [run]
  exact ⟨acts_rearmAge_none started none, takeSampled_rearmAge (y := x.departN 1) sampled alone⟩

/-- The head is taken; each next one that is past its limit ages out. -/
theorem acts_takeHead_ages (acts : Acts .loud r s v x a i) (blocks : x.blocks = (s.ring r).blocks)
    (next : x.take.NumbersNext number) (is : early = true ↔ x.EarlyAt s.timebase) (entry : e = s.stampAt r x.t)
    (ages : x.agesOut = true) :
    ∃ n ≤ x.occ - 1,
      (∀ j < n, x.config.ageLimit.toNat ≤
        (s.timebase - (s.stampAt r ((x.t + 1 + j) % x.config.slots)).commitTime).toNat) ∧
      (n < x.occ - 1 → (s.timebase - (s.stampAt r ((x.t + 1 + n) % x.config.slots)).commitTime).toNat <
        x.config.ageLimit.toNat) ∧
      Acts .seen r s (v.takeHead r)
        (agedOut (takeStarted (x.departN 1) x.t e number false s.timebase early) n
          (if n = x.occ - 1 then none
            else some ⟨(s.stampAt r ((x.t + 1 + n) % x.config.slots)).commitTime,
              x.config.ageLimit.toNat⟩)) a i ∧
      TakeSampled s (v.takeHead r) r (x.occ - 1) e := by
  obtain ⟨started, sampled⟩ := acts_startHead (acts.modRing (fun x => x.departN 1)) blocks next is entry
  have run : v.takeHead r = ((v.modRing r (fun x => x.departN 1)).startTake r x.t false).rearmAge r := by
    unfold State.takeHead
    rw [acts.ring]
  rw [run]
  generalize (v.modRing r (fun x => x.departN 1)).startTake r x.t false = w at started sampled
  have entries : ∀ p, w.stampAt r p = s.stampAt r p := started.stampAt nofun blocks
  have shift : ∀ j, ((x.t + 1) % x.config.slots + j) % x.config.slots = (x.t + 1 + j) % x.config.slots :=
    fun j => Nat.mod_add_mod _ _ _
  obtain ⟨n, within, past, young, armed⟩ := acts_armAge (takeStarted (x.departN 1) x.t e number false s.timebase
    early).occ.succ ((Acts.refl .loud r w).cast started.ring rfl rfl) ages (Nat.mod_mod _ _)
    (congrArg Ring.blocks started.ring).symm (Nat.lt_succ_self _)
  have fuel : State.armAge (takeStarted (x.departN 1) x.t e number false s.timebase early).occ.succ w r =
      w.rearmAge r := by
    unfold State.rearmAge
    rw [started.ring]
  rw [fuel] at armed
  simp only [entries, started.timebase] at past young armed
  refine ⟨n, within, fun j below => ?_, fun below => ?_, ?_, takeSampled_rearmAge (y := x.departN 1) sampled armed⟩
  · rw [← shift]
    exact past j below
  · rw [← shift]
    exact young below
  · refine (started.trans armed.expose).cast ?_ (List.append_nil a) (List.append_nil i)
    rw [← shift]
    rfl

/-! ## The read that starts a take (R109, R113) -/

/-- A read held alone that starts a take and is served from storage. -/
theorem acts_takeStarts (ring : v.ring r = withTake x q) (start : q.offset = 0) {p : Nat}
    {replay : Bool} {now : Time} (judged : v.judgeTake r q = (w.serveRead r q, none))
    (started : Acts k r s w y b j) (config : y.config = x.config)
    (take : y.take = { x.take with
      record := ⟨true, p, e.length, x.config.lastOfStamp e, number, replay, now, 0, 0xFFFF⟩
      hold := [q]
      head := .clear }) :
    Acts k r s (State.takeLoop 1 v r) { y with take := x.takenBy q p e number replay now } b
      (j ++ [x.startingRead r q p e]) := by
  have served := started.serveRead q (n := min q.count (x.config.lastOfStamp e + 1))
    (by rw [start]; exact Nat.zero_le _) (by rw [start, take, Nat.zero_add, Nat.sub_zero])
  have left := served.modTake (fun p => { p with hold := p.hold.tail })
  have looped := takeLoop_left (s := v) (rest := []) (by rw [ring]; rfl) judged 0
  rw [looped]
  refine left.cast ?_ rfl ?_
  · rw [start, take, Nat.zero_add]
    rfl
  · unfold Ring.takeIssue Ring.startingRead RingConfig.storageAddr
    rw [start, take, config, Nat.add_zero]

end

/-- A read that starts a take: the ring, and the state but for what the take start does to the survey. -/
theorem exec_of_takeStarts {s v w : State} {q : UpRequest} {r : RingId} {y : Ring} {e : Stamp}
    {number : BitVec 8} {p : Nat} {replay : Bool}
    (run : exec (.upstreamRequest q) s = .next ((State.takeLoop 1 v r).settle r))
    (ring : v.ring r = withTake (s.ring r) (takeReqOf q 0))
    (judged : v.judgeTake r (takeReqOf q 0) = (w.serveRead r (takeReqOf q 0), none))
    (started : Acts .seen r (s.enterOutstanding q) w y [] []) (config : y.config = (s.ring r).config)
    (take : y.take = { (s.ring r).take with
      record := ⟨true, p, e.length, (s.ring r).config.lastOfStamp e, number, replay, s.timebase, 0, 0xFFFF⟩
      hold := [takeReqOf q 0]
      head := .clear }) :
    ∃ t, exec (.upstreamRequest q) s = .next t ∧
      t.ring r = { y with take := (s.ring r).takenBy (takeReqOf q 0) p e number replay s.timebase } ∧
      (∀ p, p ≠ r → t.ring p = s.ring p) ∧ t.survey = w.survey ∧ t.globalFlags = w.globalFlags ∧
      t = { s with
        outstanding := s.outstanding ++ [entryOf q]
        rings := t.rings
        survey := t.survey
        globalFlags := t.globalFlags
        driver := t.driver
        issueQueue := s.issueQueue ++ [(s.ring r).startingRead r (takeReqOf q 0) p e] } := by
  have served := acts_takeStarts ring rfl judged started config take
  have stays := served.idleCondition_of_issue (List.mem_singleton_self _) (beq_self_eq_true r)
  have settled := served.settle_stays stays
  have unseen := ((acts_takeStarts ring rfl judged ((Acts.refl .loud r w).cast started.ring rfl rfl) config
    take).settle_stays stays).unseen nofun nofun
  have frame := settled.eq_of_seen nofun
  rw [answered_nil] at frame
  exact ⟨_, run, settled.ring, settled.others, unseen.1, unseen.2, frame⟩

/-- Settles O35: the head is taken, and its read handed down keeps the ring from IDLE. -/
theorem takeStartServesTheHead : Obligations.TakeStartServesTheHead := by
  intro s q r e early number reaches message absent published entry is next
  obtain ⟨run, queued⟩ := exec_of_reachesTake reaches (takeAt_below (slotWords_pos _))
  generalize takeQueued (s.enterOutstanding q) r (takeReqOf q 0) = v at run queued
  have judged : v.judgeTake r (takeReqOf q 0) = ((v.takeHead r).serveRead r (takeReqOf q 0), none) := by
    rw [judgeTake_absent rfl (by rw [queued.ring]; exact absent),
      judgeAbsent_message rfl (by rw [queued.ring]; exact message), judgeMessage_takes]
    rw [queued.ring]
    exact published
  obtain ⟨started, sampled⟩ := acts_takeHead_alone queued.louden rfl next is entry
    (.inr (Bool.eq_false_iff.2 fun ages => nomatch message.symm.trans ((agesOut_iff _).1 ages).1))
  obtain ⟨t, ran, ring, others, survey, flags, frame⟩ :=
    exec_of_takeStarts run queued.ring judged started rfl rfl
  refine ⟨t, ran, ring.trans ?_, others, takeSampled_congr sampled rfl rfl rfl survey flags, frame⟩
  have retained : ((s.ring r).departN 1).retained = (s.ring r).retained := by
    unfold Ring.departN
    rw [message]
    exact Bool.or_false _
  show ({ (s.ring r).startReported s.timebase early with
    t := ((s.ring r).t + 1) % (s.ring r).config.slots
    occ := (s.ring r).occ - 1
    retained := ((s.ring r).departN 1).retained
    ageTimer := .none
    take := (s.ring r).takenBy (takeReqOf q 0) (s.ring r).t e number false s.timebase } : Ring) = _
  rw [retained]
  rfl

/-! ## The take decision of a PACED ring (R127 to R129) -/

section

variable {v : State} {r : RingId} {q : TakeReq}

theorem judgePaced_head (choice : (v.ring r).pacedChoice = .head) :
    v.judgePaced r q = (((v.setPaced r .flowing).takeHead r).serveRead r q, none) := by
  simp only [State.judgePaced, choice]

theorem judgePaced_replay (choice : (v.ring r).pacedChoice = .replay) :
    v.judgePaced r q = (((v.setPaced r .replaying).replay r).serveRead r q, none) := by
  simp only [State.judgePaced, choice]

theorem judgePaced_fill (choice : (v.ring r).pacedChoice = .fill) :
    v.judgePaced r q = (v.respondFill r q.requester q.tag q.count, none) := by
  simp only [State.judgePaced, choice]

theorem pacedChoice_fill {x : Ring} (h : (x.state = .running ∧ x.paced = .priming ∧
    x.occ < x.config.centre.toNat) ∨ (x.state = .draining ∧ x.occ = 0)) : x.pacedChoice = .fill := by
  unfold Ring.pacedChoice
  rcases h with ⟨running, priming, below⟩ | ⟨draining, empty⟩
  · rw [running, priming, if_neg (nofun), if_pos below]
  · rw [if_pos draining, if_pos empty]

theorem pacedChoice_replay {x : Ring} (running : x.state = .running) (h : (x.paced = .flowing ∧ x.occ = 0) ∨
    (x.paced = .replaying ∧ x.occ < x.config.centre.toNat)) : x.pacedChoice = .replay := by
  unfold Ring.pacedChoice
  rw [running, if_neg (nofun)]
  rcases h with ⟨flowing, empty⟩ | ⟨replaying, below⟩
  · rw [flowing, if_pos empty]
  · rw [replaying]
    exact if_pos below

theorem pacedChoice_head {x : Ring} (h : x.state = .draining ∨ (x.state = .running ∧ (x.paced = .flowing ∨
    ((x.paced = .priming ∨ x.paced = .replaying) ∧ x.config.centre.toNat ≤ x.occ)))) (some : x.occ ≠ 0) :
    x.pacedChoice = .head := by
  unfold Ring.pacedChoice
  rcases h with draining | ⟨running, flowing | ⟨priming | replaying, above⟩⟩
  · rw [if_pos draining, if_neg some]
  · rw [running, if_neg (nofun), flowing, if_neg some]
  · rw [running, if_neg (nofun), priming, if_neg (Nat.not_lt.2 above)]
  · rw [running, if_neg (nofun), replaying]
    exact if_neg (Nat.not_lt.2 above)

end

theorem reportTimes_of_ne_zero (e : RingEvents) (mask : BitVec 18) (i : Fin 15) {n : Nat} (some : n ≠ 0) :
    reportTimes e mask i n = e.report mask i n := by
  unfold reportTimes
  rw [decide_eq_true some]
  rfl

/-- The ring that held read `q`, has taken its head with Take Engine `taken`, and has let `n` further heads age
out. -/
theorem agedOut_takeStarted {x : Ring} (paced : x.config.kind = .paced) (q : TakeReq) (p : Nat) (e : Stamp)
    (number : BitVec 8) (now : Time) (early : Bool) (n : Nat) (timer : Option Timer) (taken : TakeEngine) :
    { agedOut (takeStarted ({ withTake x q with paced := .flowing }.departN 1) p e number false now early) n
        timer with take := taken } =
      { x.startReported now early with
        t := (x.t + 1 + n) % x.config.slots
        occ := x.occ - 1 - n
        retained := true
        paced := .flowing
        ageTimer := timer
        events := reportTimes (x.startReported now early).events 0x800#18 10 n
        take := taken } := by
  unfold agedOut takeStarted Ring.startReported Ring.departN withTake
  simp [paced, Nat.mod_add_mod]

/-- The same where no further head ages out. -/
theorem takeStarted_flowing {x : Ring} (paced : x.config.kind = .paced) (q : TakeReq) (p : Nat) (e : Stamp)
    (number : BitVec 8) (now : Time) (early : Bool) (timer : Option Timer) (taken : TakeEngine) :
    { takeStarted ({ withTake x q with paced := .flowing }.departN 1) p e number false now early with
        ageTimer := timer, take := taken } =
      { x.startReported now early with
        t := (x.t + 1) % x.config.slots
        occ := x.occ - 1
        retained := true
        paced := .flowing
        ageTimer := timer
        take := taken } := by
  unfold takeStarted Ring.startReported Ring.departN withTake
  simp [paced]

/-- Settles O41: the paced take state decides; a head that is taken is followed by those past their limit. -/
theorem pacedTakesAreDecided : Obligations.PacedTakesAreDecided := by
  intro s q r e early number reaches paced absent is next
  obtain ⟨run, queued⟩ := exec_of_reachesTake reaches (takeAt_below (slotWords_pos _))
  obtain ⟨taken, -, -, -, hold⟩ := reaches
  generalize takeQueued (s.enterOutstanding q) r (takeReqOf q 0) = v at run queued
  have judged : v.judgeTake r (takeReqOf q 0) = v.judgePaced r (takeReqOf q 0) := by
    rw [judgeTake_absent rfl (by rw [queued.ring]; exact absent),
      judgeAbsent_paced rfl (by rw [queued.ring]; exact paced)]
  have choice : (v.ring r).pacedChoice = (s.ring r).pacedChoice := by rw [queued.ring]; rfl
  refine ⟨fun fills stays => ?_, fun p retained running replays entry => ?_,
    fun following last _ takes published entry followed isLast => ?_⟩
  · rw [judgePaced_fill (choice.trans (pacedChoice_fill fills))] at judged
    have filled := (acts_fills queued judged).cast (emptied_hold hold) rfl rfl
    have settled := filled.settle_stays (filled.idleCondition_of_fields stays rfl rfl rfl rfl rfl rfl)
    rw [run]
    exact congrArg _ (eq_of_answer_exact taken settled)
  · rw [judgePaced_replay (choice.trans (pacedChoice_replay running replays))] at judged
    have replayed := acts_replay (queued.louden.modRing (fun x => { x with paced := .replaying })) rfl next is
      retained entry
    obtain ⟨t, ran, ring, others, survey, flags, frame⟩ :=
      exec_of_takeStarts run queued.ring judged replayed.expose rfl rfl
    obtain ⟨survey', flags'⟩ := replayed.unseen nofun nofun
    rw [survey.trans survey', flags.trans flags'] at frame
    exact ⟨t, ran, ring, others, frame⟩
  · rw [judgePaced_head (choice.trans (pacedChoice_head takes published))] at judged
    have flowing := queued.louden.modRing (fun x => { x with paced := .flowing })
    have ages : (s.ring r).agesOut = true ↔ (s.ring r).config.ageLimit ≠ 0 := by
      rw [agesOut_iff, and_iff_right paced]
    by_cases alone : last
    · have none : (s.ring r).occ - 1 = 0 ∨ (s.ring r).agesOut = false := by
        rcases isLast.1 alone with unlimited | one
        · exact .inr (Bool.eq_false_iff.2 fun on => ages.1 on unlimited)
        · exact .inl (by rw [one])
      obtain ⟨started, sampled⟩ := acts_takeHead_alone flowing rfl next is entry none
      obtain ⟨t, ran, ring, others, survey, flags, frame⟩ :=
        exec_of_takeStarts run queued.ring judged started rfl rfl
      refine ⟨t, ran, others, takeSampled_congr sampled rfl rfl rfl survey flags, fun _ => ring.trans ?_,
        fun not => absurd alone not, frame⟩
      rw [if_pos alone]
      exact takeStarted_flowing paced (takeReqOf q 0) (s.ring r).t e number s.timebase early .none _
    · obtain ⟨limited, more⟩ := not_or.1 (mt isLast.2 alone)
      obtain ⟨n, within, past, young, started, sampled⟩ :=
        acts_takeHead_ages flowing rfl next is entry (ages.2 limited)
      obtain ⟨t, ran, ring, others, survey, flags, frame⟩ :=
        exec_of_takeStarts run queued.ring judged started rfl rfl
      have count : n ≤ (s.ring r).occ - 1 := within
      have some : (s.ring r).config.ageLimit.toNat ≤ (s.timebase - following).toNat → n ≠ 0 := fun aged zero => by
        subst zero
        exact absurd (young (by show 0 < (s.ring r).occ - 1; omega)) (Nat.not_lt.2 (followed ▸ aged))
      refine ⟨t, ran, others, takeSampled_congr sampled rfl rfl rfl survey flags, fun fresh => ring.trans ?_,
        fun _ aged => ⟨n, ?_, ?_, past, fun below => young ?_, ring.trans ?_⟩, frame⟩
      · have fresh := fresh.resolve_left alone
        have zero : n = 0 := Nat.eq_zero_of_not_pos fun some =>
          absurd (past 0 some) (Nat.not_le.2 (followed ▸ fresh))
        subst zero
        have another : 0 ≠ (s.ring r).occ - 1 := by omega
        rw [if_neg alone, followed]
        refine (agedOut_takeStarted paced (takeReqOf q 0) (s.ring r).t e number s.timebase early 0 _ _).trans ?_
        dsimp only
        congr 1
        · exact if_neg another
        · exact reportTimes_zero _ _ _
      · exact Nat.pos_of_ne_zero (some aged)
      · omega
      · show n < (s.ring r).occ - 1
        omega
      · refine (agedOut_takeStarted paced (takeReqOf q 0) (s.ring r).t e number s.timebase early n _ _).trans ?_
        have same : n = (s.ring r).occ - 1 ↔ n + 1 = (s.ring r).occ := by omega
        dsimp only
        congr 1
        · exact if_congr same rfl rfl
        · exact reportTimes_of_ne_zero _ _ _ (some aged)

/-- The head departs by its expiry, and each next one that is past its limit behind it (R131, R132). -/
theorem acts_ageExpiry {s : State} {r : RingId} (published : (s.ring r).occ ≠ 0)
    (ages : (s.ring r).agesOut = true) (paced : (s.ring r).config.kind = .paced) :
    ∃ n, 1 ≤ n ∧ n ≤ (s.ring r).occ ∧
      (∀ j, 1 ≤ j → j < n → (s.ring r).config.ageLimit.toNat ≤ (s.timebase -
        (s.stampAt r (((s.ring r).t + j) % (s.ring r).config.slots)).commitTime).toNat) ∧
      (n < (s.ring r).occ → (s.timebase -
        (s.stampAt r (((s.ring r).t + n) % (s.ring r).config.slots)).commitTime).toNat <
          (s.ring r).config.ageLimit.toNat) ∧
      Acts .loud r s ((s.ageOutHead r).rearmAge r) (agedOut (s.ring r) n
        (if n = (s.ring r).occ then none
          else some ⟨(s.stampAt r (((s.ring r).t + n) % (s.ring r).config.slots)).commitTime,
            (s.ring r).config.ageLimit.toNat⟩)) [] [] := by
  have aged := acts_ageOutHead (Acts.refl .loud r s)
  have rearm : (s.ageOutHead r).rearmAge r = State.armAge ((s.ring r).occ - 1).succ (s.ageOutHead r) r := by
    unfold State.rearmAge
    rw [aged.ring]
    rfl
  obtain ⟨n, within, past, young, departed⟩ := acts_armAge _ aged ages (Nat.mod_mod _ _) rfl
    (Nat.lt_succ_self ((s.ring r).occ - 1))
  rw [← rearm, agedOut_succ paced] at departed
  have count : n ≤ (s.ring r).occ - 1 := within
  have shift : ∀ j, (((s.ring r).t + 1) % (s.ring r).config.slots + j) % (s.ring r).config.slots =
      ((s.ring r).t + (j + 1)) % (s.ring r).config.slots := fun j => by
    rw [Nat.mod_add_mod, Nat.add_assoc, Nat.add_comm 1 j]
  have same : n = (s.ring r).occ - 1 ↔ n + 1 = (s.ring r).occ := by omega
  refine ⟨n + 1, Nat.succ_pos n, by omega, fun j first below => ?_, fun below => ?_,
    departed.cast (congrArg (agedOut (s.ring r) (n + 1)) ?_) rfl rfl⟩
  · obtain ⟨j, rfl⟩ := Nat.exists_eq_add_of_le' first
    rw [← shift]
    exact past j (Nat.lt_of_succ_lt_succ below)
  · rw [← shift]
    exact young (by show n < (s.ring r).occ - 1; omega)
  · rw [← shift]
    exact if_congr same rfl rfl

/-- Settles O42: one head departs by the expiry, and each next one that is past its limit. -/
theorem ageExpiryDepartsTheHead : Obligations.AgeExpiryDepartsTheHead := by
  intro s r timer up armed
  have run : exec (.ageExpiry r) s = .next (s.ageExpiry r) := congrArg Host.Outcome.next (whileUp_of_up up _)
  refine ⟨fun early => ?_, fun due published paced limited serving => ?_⟩
  · rw [run]
    exact congrArg _ (if_neg (by rw [armed, timerDue_some, early]; simp))
  · have expires : s.ageExpiry r = ((s.ageOutHead r).rearmAge r).settle r :=
      if_pos (by rw [armed, timerDue_some, due, (serving_iff _).2 serving]; simp [published])
    rw [run, expires]
    obtain ⟨n, first, within, past, young, departed⟩ := acts_ageExpiry published
      ((agesOut_iff _).2 ⟨paced, limited⟩) paced
    generalize timerIs : ite (n = (s.ring r).occ) _ _ = next at departed
    generalize (s.ageOutHead r).rearmAge r = w at departed
    obtain ⟨idles, stays, -, frame⟩ := settle_cases departed Iff.rfl
    have flags := flags_settle (m := 0x800#18) (v := w) (r := r) (by
      rw [departed.ring]
      unfold agedOut
      rw [reportTimes_of_ne_zero _ _ _ (Nat.ne_of_gt first)]
      exact flags_report _ _ _ _)
    have counters := counters_settle w r
    rw [departed.ring] at counters
    have answers := (upResponses_settle w r).trans (departed.upResponses.trans (List.append_nil _))
    have stamps : (w.settle r).stamps = s.stamps := by rw [frame]; rfl
    have ended : (w.settle r).ring r = agedOut (s.ring r) n next ∧ (w.settle r).survey = s.survey ∨
        ((w.settle r).ring r = (agedOut (s.ring r) n next).atIdle ∧ n = (s.ring r).occ) := by
      by_cases meets : enters (agedOut (s.ring r) n next) (s.noDownstream r)
      · refine .inr ⟨(idles meets).1, ?_⟩
        have empty : (s.ring r).occ - n = 0 := by
          rcases meets.2 with aborting | ⟨-, -, empty, -⟩
          · rcases serving with running | draining
            · exact nomatch running.symm.trans aborting
            · exact nomatch draining.symm.trans aborting
          · exact empty
        omega
      · obtain ⟨same, survey, -⟩ := stays meets
        exact .inl ⟨same, survey⟩
    generalize w.settle r = t at *
    refine ⟨t, n, rfl, first, within, ?_, ?_, flags, ?_, past, fun below => ⟨young below, ?_⟩, fun all => ?_,
      fun kept => ?_, answers, stamps⟩
    · rcases ended with ⟨same, -⟩ | ⟨idle, all⟩
      · rw [same]; rfl
      · rw [idle, all, Nat.sub_self]; rfl
    · rcases ended with ⟨same, -⟩ | ⟨idle, -⟩
      · rw [same]; rfl
      · rw [idle]; rfl
    · rw [counters]
      exact Vector.getElem_set_self _
    · rcases ended with ⟨same, -⟩ | ⟨-, all⟩
      · rw [same]
        exact timerIs.symm.trans (if_neg below.ne)
      · exact absurd all below.ne
    · rcases ended with ⟨same, -⟩ | ⟨idle, -⟩
      · rw [same]
        exact timerIs.symm.trans (if_pos all)
      · rw [idle]; rfl
    · rcases ended with ⟨same, survey⟩ | ⟨idle, -⟩
      · rw [same]
        refine ⟨?_, rfl, rfl, rfl, survey⟩
        show ((s.ring r).retained || decide (n ≠ 0)) = true
        rw [decide_eq_true (Nat.ne_of_gt first), Bool.or_true]
      · have state : RingState.idle = (s.ring r).state := by rw [← kept, idle]; rfl
        rcases serving with running | draining
        · exact nomatch state.trans running
        · exact nomatch state.trans draining

end Sys2Proof.Laws

/-! PROOFS. The OK outcome of a read (R83, R84, R106, R114, R115); with O38. -/

namespace Sys2Proof.Laws

open Sys2Proof.Machine

/-! ## What an OK outcome makes of a ring -/

/-- The read `e` covers U of the present take under take check, and the trailer it brings is not the check word of
the slot (R84). -/
def trailerFails (x : TakeRecord) (c : RingConfig) (e : ReadEntry) (words : List Word) : Prop :=
  x.present = true ∧ x.number = e.number ∧ c.takeCheck = true ∧ e.coversU = true ∧
    (words.getLastD 0).extractLsb' 0 16 ≠ crcWords x.crc words.dropLast

/-- The take record after read `e` has brought these words (R83, R106, R115). -/
def recordRead (x : TakeRecord) (c : RingConfig) (e : ReadEntry) (words : List Word) : TakeRecord :=
  if ¬(x.present = true ∧ x.number = e.number) then x
  else if e.coversU then { TakeRecord.reset with number := x.number }
  else if c.takeCheck then
    { x with crc := crcWords x.crc words, cursor := min (e.offset + e.count) x.lastUsed }
  else x

/-- The ring after read `e` has brought these words and has been answered. -/
def readAnswered (x : Ring) (e : ReadEntry) (words : List Word) (status : Status) (now : Time) : Ring :=
  { x with
    take := { x.take with
      record := recordRead x.take.record x.config e words
      refusal :=
        if status = .error then ⟨some .checkMismatch, e.requester, e.offset, now, true⟩ else x.take.refusal }
    events := if status = .error then x.events.report 0x20#18 7 1 else x.events }

/-- The answer to read `e` (R114). -/
def readResponse (x : Ring) (e : ReadEntry) (words : List Word) (status : Status) : UpResponse :=
  ⟨e.requester, e.tag, status, if status = .ok then words ++ List.replicate (e.count - e.words) x.config.fillWord
    else []⟩

theorem matchesEntry_iff (x : TakeRecord) (e : ReadEntry) :
    x.matchesEntry e = true ↔ x.present = true ∧ x.number = e.number := by
  simp [TakeRecord.matchesEntry]

section

variable {k : Scope} {s v w : State} {r : RingId} {y : Ring} {a : List UpResponse} {i : List Issue}

/-- The OK outcome of a read: the release of its slot, where it covers U, comes last. -/
theorem acts_takeOk (acts : Acts k r s v y a i) (loud : k ≠ .exact) (e : ReadEntry) (words : List Word) :
    ∃ w status, (status = .error ↔ trailerFails y.take.record y.config e words) ∧
      v.takeOk r e words = (if y.take.record.matchesEntry e && e.coversU then w.roomAppears r else w) ∧
      Acts k r s w (readAnswered y e words status s.timebase) (a ++ [readResponse y e words status]) i := by
  have answered := acts.respond e.requester e.tag .ok (y.readData e words)
  unfold State.takeOk
  rw [acts.ring]
  by_cases matched : y.take.record.matchesEntry e = true
  · have same := (matchesEntry_iff _ _).1 matched
    cases check : y.config.takeCheck <;> cases covers : e.coversU
    · refine ⟨v.respond e.requester e.tag .ok (y.readData e words), .ok,
        ⟨nofun, fun ⟨_, _, on, _⟩ => Bool.noConfusion (check.symm.trans on)⟩, by simp [matched, check], ?_⟩
      refine answered.cast ?_ rfl rfl
      unfold readAnswered recordRead
      simp [same, check, covers]
    · refine ⟨(v.respond e.requester e.tag .ok (y.readData e words)).clearTake r, .ok,
        ⟨nofun, fun ⟨_, _, on, _⟩ => Bool.noConfusion (check.symm.trans on)⟩,
        by simp [matched, check, State.releaseTake], ?_⟩
      refine answered.clearTake.cast ?_ rfl rfl
      unfold readAnswered recordRead
      simp [same, covers, TakeEngine.ended]
    · refine ⟨v.answerChecked r e words, .ok,
        ⟨nofun, fun ⟨_, _, _, all, _⟩ => Bool.noConfusion (covers.symm.trans all)⟩, by simp [matched, check], ?_⟩
      have followed := (acts.modTake (fun t => { t with record := { t.record with
        crc := crcWords t.record.crc words
        cursor := min (e.offset + e.count) t.record.lastUsed } })).respond e.requester e.tag .ok
        (y.readData e words)
      have run : v.answerChecked r e words = (v.modTake r (fun t => { t with record := { t.record with
        crc := crcWords t.record.crc words
        cursor := min (e.offset + e.count) t.record.lastUsed } })).respond e.requester e.tag .ok
        (y.readData e words) := by
        unfold State.answerChecked
        rw [acts.ring]
      rw [run]
      refine followed.cast ?_ rfl rfl
      unfold readAnswered recordRead
      simp [same, check, covers]
    · by_cases holds : trailerCheck (words.getLastD 0) = crcWords y.take.record.crc words.dropLast
      · refine ⟨(v.respond e.requester e.tag .ok (y.readData e words)).clearTake r, .ok,
          ⟨nofun, fun ⟨_, _, _, _, differs⟩ => absurd holds differs⟩, ?_, ?_⟩
        · simp only [matched, check, Bool.not_true, Bool.false_eq_true, if_false, if_true, Bool.and_true,
            State.answerTrailer, acts.ring, holds]
          rfl
        · refine answered.clearTake.cast ?_ rfl rfl
          unfold readAnswered recordRead
          simp [same, covers, TakeEngine.ended]
      · have refused := (acts.recordTake loud .checkMismatch e.requester e.offset).respondError e.requester e.tag
        refine ⟨((v.recordTake r .checkMismatch e.requester e.offset).respondError e.requester e.tag).clearTake r,
          .error, iff_of_true rfl ⟨same.1, same.2, check, covers, holds⟩, ?_, ?_⟩
        · simp only [matched, check, Bool.not_true, Bool.false_eq_true, if_false, if_true, Bool.and_true,
            State.answerTrailer, acts.ring, holds]
          rfl
        · refine refused.clearTake.cast ?_ rfl rfl
          unfold readAnswered recordRead
          simp [same, covers, TakeEngine.ended]
          rfl
  · have differs := mt (matchesEntry_iff _ _).2 matched
    refine ⟨v.respond e.requester e.tag .ok (y.readData e words), .ok,
      ⟨nofun, fun ⟨present, number, _⟩ => absurd ⟨present, number⟩ differs⟩, by simp [matched], ?_⟩
    refine answered.cast ?_ rfl rfl
    unfold readAnswered recordRead
    rw [if_pos differs]
    rfl

/-- The free words that a response of `data` to a read of `n` words needs are taken. -/
theorem Acts.countFree (acts : Acts .wide r s v y a i) (n : Nat) (data : List Word) :
    Acts .wide r s (v.countFree n data) y a i where
  ring := acts.ring
  others := acts.others
  frame := by
    unfold State.countFree
    conv_lhs => rw [acts.frame]
  quiet narrow := absurd rfl narrow
  unseen narrow := absurd rfl narrow
  still := nofun

end

section

variable {s : State} {r : RingId} {i : DTag} {q : Requester} {u : UTag} {g : BitVec 8} {timeout : Timer}
  {e : ReadEntry} {x : Ring} {data words : List Word}

/-- The words that the response brings (R14, R114). -/
def wordsOf (s : State) (e : ReadEntry) (data : List Word) : List Word :=
  data.take e.words ++ (List.range (e.words - data.length)).map (fun n => Config.freeWord (s.freeCount + n))

theorem wordsOf_full (full : data.length = e.words) : wordsOf s e data = data := by
  unfold wordsOf
  rw [full, Nat.sub_self, List.take_of_length_le full.le]
  exact List.append_nil data

/-- The OK outcome of a read up to the release of its slot and to a read that waits for it. -/
theorem exec_readOk (up : s.resetN = true) (busy : s.tags[i] = .busy (.take r) q u g timeout)
    (found : (s.ring r).take.reads.find? (fun e => e.requester == q && e.tag == u) = some e)
    (answered : { s.ring r with take := readsWithout (s.ring r).take q u } = x) (data : List Word) :
    ∃ w status, (status = .error ↔ trailerFails x.take.record x.config e (wordsOf s e data)) ∧
      exec (.downstreamResponse i .ok data) s =
        .next ((((if x.take.record.matchesEntry e && e.coversU then w.roomAppears r else w).judgeTakeWaiting r)).settle
          r) ∧
      Acts .wide r (s.setTag i .free) w (readAnswered x e (wordsOf s e data) status s.timebase)
        [readResponse x e (wordsOf s e data) status] [] ∧
      w.freeCount = s.freeCount + (e.words - data.length) := by
  subst answered
  have acts := (((Acts.refl .exact r (s.setTag i .free)).modTake (fun t => readsWithout t q u)).widen.countFree
    e.words data)
  have run : exec (.downstreamResponse i .ok data) s =
      .next ((((((s.setTag i .free).modTake r (fun t => readsWithout t q u)).countFree e.words data).takeOk r e
        (wordsOf s e data)).judgeTakeWaiting r).settle r) := by
    rw [exec_downstreamResponse_busy up busy]
    show Host.Outcome.next (((s.setTag i .free).takeOutcome r q u .ok data).settle r) = _
    rw [takeOutcome_ok (v := s.setTag i .free) found]
    rfl
  have free : (((s.setTag i .free).modTake r (fun t => readsWithout t q u)).countFree e.words data).freeCount =
      s.freeCount + (e.words - data.length) := rfl
  generalize ((s.setTag i .free).modTake r (fun t => readsWithout t q u)).countFree e.words data = v at acts run free
  obtain ⟨w, status, error, released, answered⟩ :=
    acts_takeOk ((Acts.refl .loud r v).cast acts.ring rfl rfl) nofun e (wordsOf s e data)
  rw [released] at run
  rw [acts.timebase] at answered
  exact ⟨w, status, error, run, acts.trans answered.widen, (answered.quiet nofun).2.trans free⟩

theorem freeCount_settle (v : State) (r : RingId) : (v.settle r).freeCount = v.freeCount := by
  cases meets : v.idleCondition r with
  | false => rw [settle_of_not meets]
  | true => exact (((Acts.refl .loud r v).expose.settle_enters meets).quiet nofun).2

end

/-- Settles O38: the words are answered, and the read of U ends its take. -/
theorem readOutcomesEndTheTake : Obligations.ReadOutcomesEndTheTake := by
  rintro s r i q u g timeout e data words x crc up busy found hold head unparked rfl wordsIs rfl
  obtain ⟨w, status, error, run, acts, free⟩ := exec_readOk up busy found rfl data
  rw [show wordsOf s e data = words from wordsIs.symm] at error acts
  have full : data.length = e.words → words = data := fun full => wordsIs.trans (wordsOf_full (s := s) full)
  have still : (if (readsWithout (s.ring r).take q u).record.matchesEntry e && e.coversU then w.roomAppears r
      else w).judgeTakeWaiting r = w := by
    rw [roomAppears_unparked (by rw [acts.ring]; exact unparked), ite_self, judgeTakeWaiting_of_not]
    rw [acts.ring]
    exact ne_of_eq_of_ne head nofun
  rw [still] at run
  have take := (take_settle (v := w) (r := r) (by rw [acts.ring]; exact head)).trans (congrArg Ring.take acts.ring)
  have answers := (upResponses_settle w r).trans acts.upResponses
  have refusal : ((w.settle r).ring r).take.refusal = if status = .error then
      ⟨some .checkMismatch, e.requester, e.offset, s.timebase, true⟩ else (s.ring r).take.refusal := by
    rw [take]
    rfl
  have events : (w.ring r).events = if status = .error then (s.ring r).events.report 0x20#18 7 1
      else (s.ring r).events := by
    rw [acts.ring]
    rfl
  refine ⟨_, run, full, (freeCount_settle w r).trans free, fun sound => ?_, ?_, ⟨status, answers, error,
    fun failed => ⟨refusal.trans (if_pos failed), flags_settle ?_, ?_⟩,
    fun ok => ⟨refusal.trans (if_neg ?_), ?_⟩⟩, ?_⟩
  · rcases ring_settle w r with same | idle
    · rw [same, acts.ring]
      show (s.ring r).occ = if (s.ring r).state = .idle then 0 else (s.ring r).occ
      have here := sound r
      split
      next idle =>
        rw [if_pos idle] at here
        exact here.1
      next => rfl
    · rw [idle]
      rfl
  · rcases ring_settle w r with same | idle
    · rw [same, acts.ring]
      rfl
    · rw [idle, acts.ring]
      rfl
  · rw [events, if_pos failed]
    exact flags_report _ _ _ _
  · rw [counters_settle, events, if_pos failed]
  · rw [ok]
    nofun
  · rw [counters_settle, events, if_neg (by rw [ok]; nofun)]
  · rw [refusal, take]
    rfl

end Sys2Proof.Laws

/-! PROOFS. The outcome of a put write (R62, R64), and the verdicts that publish nothing (R63, R73, R77, R89, R95,
R97). -/

namespace Sys2Proof.Laws

open Sys2Proof.Machine

/-! ## The outcome counted, recorded and answered (R62, R64) -/

/-- The write's outcome counted and recorded. -/
def outcomeRecorded (v : State) (r : RingId) (q : Requester) (u : UTag) (g : BitVec 8) (e : WriteEntry)
    (status : Status) : State :=
  let s := v.modPut r (fun p =>
    { p.counted g status with writes := p.writes.filter (fun e => !e.isPair q u) })
  if status = .error then s.recordPut r .downstream q e.offset else s

/-- The write's outcome answered, unless its request waits for the commit completion. -/
def outcomeTaken (v : State) (r : RingId) (q : Requester) (u : UTag) (g : BitVec 8) (e : WriteEntry)
    (status : Status) : State :=
  let s := outcomeRecorded v r q u g e status
  if (v.ring r).put.isU q u then s else s.respond q u status []

section

variable {s v : State} {r : RingId} {x : Ring} {q : Requester} {u : UTag} {g : BitVec 8} {e : WriteEntry}
  {status : Status}

theorem counted_eq (p : PutEngine) (g : BitVec 8) (status : Status) : p.counted g status = { p with
    outstanding := if p.ofOpenSlot g then p.outstanding - 1 else p.outstanding
    downFault := p.downFault || (p.ofOpenSlot g && decide (status = .error))
    torn := if p.ofOpenSlot g then p.torn else tornAfter p.torn g } := by
  unfold PutEngine.counted
  rw [show p.isCurrent g = p.ofOpenSlot g from rfl]
  cases p.ofOpenSlot g
  · rw [Bool.false_and, Bool.or_false]
    rfl
  · rw [Bool.true_and]
    rfl

theorem isCurrent_iff (p : PutEngine) (g : BitVec 8) :
    p.isCurrent g = true ↔ p.slotOpen = true ∧ p.generation = g := by
  simp [PutEngine.isCurrent]

theorem isU_eq (p : PutEngine) (q : Requester) (u : UTag) : p.isU q u =
    (p.slotOpen && p.uRequest.any (fun w => w.requester == q && w.tag == u)) := by
  unfold PutEngine.isU
  cases p.uRequest with
  | none => simp
  | some w => simp [Bool.and_assoc]

theorem acts_outcomeRecorded : Acts .loud r v (outcomeRecorded v r q u g e status)
    ((v.ring r).outcomeCounted q u g e status v.timebase) [] [] := by
  have counted := (Acts.refl .loud r v).modPut (fun p =>
    { p.counted g status with writes := p.writes.filter (fun e => !e.isPair q u) })
  rw [counted_eq] at counted
  unfold outcomeRecorded
  cases status with
  | ok => exact counted
  | error => exact counted.recordPut nofun .downstream q e.offset

theorem acts_outcomeTaken : Acts .loud r v (outcomeTaken v r q u g e status)
    ((v.ring r).outcomeCounted q u g e status v.timebase) ((v.ring r).outcomeAnswer q u status) [] := by
  have recorded := acts_outcomeRecorded (v := v) (r := r) (q := q) (u := u) (g := g) (e := e) (status := status)
  unfold outcomeTaken Ring.outcomeAnswer
  rw [isU_eq]
  split
  · exact recorded
  · exact recorded.respond q u status []

theorem putOutcome_eq
    (found : (v.ring r).put.writes.find? (fun e => e.requester == q && e.tag == u) = some e) :
    v.putOutcome r q u g status =
      (outcomeTaken v r q u g e status).afterOutcome r ((v.ring r).put.isCurrent g) := by
  unfold State.putOutcome
  dsimp only
  rw [show (v.ring r).put.writes.find? (fun e => e.isPair q u) = some e from found]
  rfl

/-! ## What the outcome ends (R58, R62) -/

theorem afterOutcome_completes (closes : (v.ring r).put.phase = .committing) (last : (v.ring r).put.outstanding = 0) :
    v.afterOutcome r true = v.commitCompletion r := by
  simp [State.afterOutcome, closes, last]

theorem afterOutcome_open (more : (v.ring r).put.phase = .committing → (v.ring r).put.outstanding ≠ 0) :
    v.afterOutcome r true = v := by
  simp [State.afterOutcome]
  exact fun closes last => absurd last (more closes)

theorem afterOutcome_serves (waits : (v.ring r).put.head = .waiting) (clear : (v.ring r).put.generationClear) :
    v.afterOutcome r false = v.judgePutQueue r := by
  simp [State.afterOutcome, waits, (generationHeld_eq_false_iff _).2 clear]

theorem afterOutcome_torn (held : (v.ring r).put.head = .waiting → ¬(v.ring r).put.generationClear) :
    v.afterOutcome r false = v := by
  simp [State.afterOutcome]
  exact fun waits clear => absurd ((generationHeld_eq_false_iff _).1 clear) (held waits)

end

/-! ## The Alignment Checker's reports (R77, R89, R95, R97) -/

/-- The flags that a judgement raises. -/
theorem flag_judge (a : AlignChecker) (c : RingConfig) (now : Time) (marker : BitVec 16) (sq : BitVec 8) :
    (a.judge c now marker sq).flag = none ∨ (a.judge c now marker sq).flag = some .alignFound ∨
      (a.judge c now marker sq).flag = some .alignLost := by
  unfold AlignChecker.judge AlignChecker.judgeSearch AlignChecker.judgeConfirm AlignChecker.judgeAligned
    AlignChecker.judgeSearch
  cases a.state <;> dsimp only <;> repeat' split
  all_goals simp

section

variable {k : Scope} {s v : State} {r : RingId} {x : Ring} {a : List UpResponse} {i : List Issue}

theorem Acts.raiseOpt (acts : Acts k r s v x a i) (loud : k ≠ .exact) {f : Option RingFlag}
    (is : f = none ∨ f = some .alignFound ∨ f = some .alignLost) :
    Acts k r s (v.raiseOpt r f)
      { x with events := { x.events with flags := x.events.flags ||| alignBits f } } a i := by
  rcases is with rfl | rfl | rfl
  · refine acts.cast ?_ rfl rfl
    show x = { x with events := { x.events with flags := x.events.flags ||| 0#18 } }
    rw [BitVec.or_zero]
  · exact acts.raise loud .alignFound
  · exact acts.raise loud .alignLost

/-- A check mismatch reported to the Alignment Checker (R95). -/
theorem Acts.alignCheckReport (acts : Acts k r s v x a i) (loud : k ≠ .exact) :
    Acts k r s (v.alignCheckReport r)
      { x with
        align := x.align.mismatchReported x.config s.timebase
        events := { x.events with
          flags := x.events.flags ||| flagsIf (x.align.losesByMismatch x.config) 0x2#18 } } a i := by
  unfold State.alignCheckReport
  rw [acts.ring, acts.timebase]
  dsimp only
  have outside : x.align.state ≠ .aligned → x = { x with
      align := x.align.mismatchReported x.config s.timebase
      events := { x.events with
        flags := x.events.flags ||| flagsIf (x.align.losesByMismatch x.config) 0x2#18 } } := fun away => by
    have stays : x.align.losesByMismatch x.config = false := decide_eq_false fun h => away h.1
    unfold AlignChecker.mismatchReported
    rw [stays, or_flagsIf_false, if_neg away]
    rfl
  cases state : x.align.state with
  | aligned =>
    dsimp only
    by_cases worse : x.config.errorThreshold.toNat < x.align.errorCount + 1
    · have loses : x.align.losesByMismatch x.config = true := decide_eq_true ⟨state, worse⟩
      rw [if_pos worse]
      refine ((acts.modAlign _).raise loud .alignLost).cast ?_ rfl rfl
      unfold AlignChecker.mismatchReported AlignChecker.lose
      rw [loses, searchTimerAt_eq]
      rfl
    · have stays : x.align.losesByMismatch x.config = false := decide_eq_false fun h => worse h.2
      rw [if_neg worse]
      refine (acts.modAlign _).cast ?_ rfl rfl
      unfold AlignChecker.mismatchReported
      rw [stays, or_flagsIf_false, if_pos state, ← state]
      rfl
  | off => exact acts.cast (outside (by rw [state]; nofun)) rfl rfl
  | search => exact acts.cast (outside (by rw [state]; nofun)) rfl rfl
  | confirm => exact acts.cast (outside (by rw [state]; nofun)) rfl rfl
  | bypassed => exact acts.cast (outside (by rw [state]; nofun)) rfl rfl

/-! ## The commit completion (R63) -/

/-- The open slot returns to NONE, and what held the head of the queue has ended. -/
def closeSlot (p : PutEngine) : PutEngine := { p with phase := .none, uRequest := .none, head := .clear }

theorem modPut_modPut (v : State) (r : RingId) (f f' : PutEngine → PutEngine) :
    (v.modPut r f).modPut r f' = v.modPut r (fun p => f' (f p)) := by
  unfold State.modPut
  rw [modRing_eq (s := v.modRing r _), ring_modRing_self]
  refine congrArg (fun rings => { v with rings := rings }) ?_
  show Vector.set (v.rings.set r _) r _ = _
  rw [Vector.set_set]

theorem judgePutQueue_closed (v : State) (r : RingId) :
    (v.modPut r (fun p => { p with phase := .none, uRequest := .none })).judgePutQueue r =
      (v.modPut r closeSlot).judgePutQueue r := by
  unfold State.judgePutQueue
  rw [modPut_modPut, modPut_modPut, ring_modPut_self, ring_modPut_self]
  rfl

theorem commitCompletion_serving {w : UReq} (request : (v.ring r).put.uRequest = some w)
    (serving : (v.ring r).state ≠ .aborting) :
    v.commitCompletion r = ((v.verdicts r (some w)).modPut r closeSlot).judgePutQueue r := by
  rw [← judgePutQueue_closed]
  unfold State.commitCompletion
  dsimp only
  rw [request, if_neg serving]

theorem commitCompletion_aborting {w : UReq} (request : (v.ring r).put.uRequest = some w)
    (aborting : (v.ring r).state = .aborting) :
    v.commitCompletion r = ((v.abortedCompletion r (some w)).modPut r closeSlot).judgePutQueue r := by
  rw [← judgePutQueue_closed]
  unfold State.commitCompletion
  dsimp only
  rw [request, if_pos aborting]

theorem reachesAlign_iff (x : Ring) : x.reachesAlign = true ↔
    x.put.downFault = false ∧ ¬(x.config.checkMode = .verify ∧ x.put.mismatch = true) := by
  unfold Ring.reachesAlign
  cases x.put.mismatch <;> simp

/-- A slot that gets past the downstream and check verdicts. -/
theorem verdicts_reachesAlign (acts : Acts k r s v x a i) (reaches : x.reachesAlign = true) (w : Option UReq) :
    v.verdicts r w = v.alignVerdict r w := by
  obtain ⟨sound, checked⟩ := (reachesAlign_iff x).1 reaches
  unfold State.verdicts
  rw [acts.ring]
  simp only [sound, Bool.false_eq_true, if_false, Bool.and_eq_true, decide_eq_true_eq]
  exact if_neg checked

/-- The verdicts on a slot that is not published (R63 steps 1 to 3). -/
theorem acts_verdicts_unpublished (acts : Acts k r s v x a i) (loud : k ≠ .exact) (w : UReq) {j : Judgement}
    (judged : j = x.align.judge x.config s.timebase x.put.marker x.put.sequence)
    (unpublished : ¬(x.reachesAlign = true ∧ j.decision ≠ .drop)) :
    Acts k r s ((v.verdicts r (some w)).modPut r closeSlot) (x.verdictTaken w j s.timebase).1
      (a ++ [⟨w.requester, w.tag, (x.verdictTaken w j s.timebase).2, []⟩]) i := by
  unfold Ring.verdictTaken
  split
  next fault =>
    have run : v.verdicts r (some w) = v.respond w.requester w.tag .error [] := by
      unfold State.verdicts
      rw [acts.ring]
      exact if_pos fault
    rw [run]
    exact (acts.respond w.requester w.tag .error []).modPut closeSlot
  next sound =>
    split
    next failed =>
      have run : v.verdicts r (some w) = v.checkVerdict r (some w) := by
        unfold State.verdicts
        rw [acts.ring]
        exact (if_neg sound).trans (if_pos (by rw [failed.1, failed.2]; rfl))
      have discarded := (((acts.recordPut loud .checkMismatch w.requester w.offset).alignCheckReport loud).respond
        w.requester w.tag .error []).modPut closeSlot
      rw [run]
      refine discarded.cast ?_ rfl rfl
      unfold Ring.mismatchDiscarded RingEvents.report
      rw [← BitVec.or_assoc]
      rfl
    next checked =>
      have reaches : x.reachesAlign = true := (reachesAlign_iff x).2 ⟨eq_false_of_ne_true sound, checked⟩
      have drops : j.decision = .drop := not_not.1 fun kept => unpublished ⟨reaches, kept⟩
      have flag : j.flag = none ∨ j.flag = some .alignFound ∨ j.flag = some .alignLost := by
        rw [judged]
        exact flag_judge _ _ _ _ _
      have dropped := ((((acts.bump .droppedAlign 1).modAlign (fun _ => j.after)).raiseOpt loud flag).respond
        w.requester w.tag .ok []).modPut closeSlot
      have run : v.alignVerdict r (some w) =
          (((v.bump r .droppedAlign 1).modAlign r (fun _ => j.after)).raiseOpt r j.flag).respond w.requester w.tag
            .ok [] := by
        unfold State.alignVerdict
        dsimp only
        rw [acts.ring, acts.timebase, ← judged, drops]
        rfl
      rw [if_pos drops, verdicts_reachesAlign acts reaches, run]
      exact dropped

/-- The ring once its slot, published with or without a gap, has been closed. -/
def alignPublished (y : Ring) (j : Judgement) (gap : Bool) : Ring :=
  { y.closed with
    align := j.after
    events :=
      { (if gap then y.events.report 0x8#18 3 1 else y.events) with
        flags := (if gap then y.events.flags ||| 0x8#18 else y.events.flags) ||| alignBits j.flag } }

/-- The verdict on a slot that is published, with what the publish makes of the ring. -/
theorem acts_verdicts_published (acts : Acts k r s v x a i) (w : UReq) {j : Judgement}
    (judged : j = x.align.judge x.config s.timebase x.put.marker x.put.sequence)
    (reaches : x.reachesAlign = true) (kept : j.decision ≠ .drop) {gap : Bool}
    (isGap : gap = true ↔ j.decision = .publishGap) {k' : Scope} (loud : k' ≠ .exact) {y : Ring} {b : List UpResponse} {i' : List Issue} {s' : State}
    (published : Acts k' r s' (v.publish r gap) y b i') :
    Acts k' r s' ((v.verdicts r (some w)).modPut r closeSlot)
      (alignPublished y j gap) (b ++ [⟨w.requester, w.tag, .ok, []⟩]) i' := by
  have flag : j.flag = none ∨ j.flag = some .alignFound ∨ j.flag = some .alignLost := by
    rw [judged]
    exact flag_judge _ _ _ _ _
  rw [verdicts_reachesAlign acts reaches]
  unfold State.alignVerdict
  dsimp only
  rw [acts.ring, acts.timebase, ← judged]
  cases gap with
  | false =>
    have decision : j.decision = .publish := by
      cases d : j.decision with
      | publish => rfl
      | publishGap => exact absurd (isGap.2 d) nofun
      | drop => exact absurd d kept
    rw [decision]
    exact ((((published.modAlign (fun _ => j.after)).raiseOpt loud flag).respond w.requester w.tag .ok []).modPut
      closeSlot)
  | true =>
    rw [isGap.1 rfl]
    exact (((((published.report loud .seqGap .seqGaps 1).modAlign (fun _ => j.after)).raiseOpt loud flag).respond
      w.requester w.tag .ok []).modPut closeSlot)

end

end Sys2Proof.Laws

/-! PROOFS. The publish (R41, R45): the stamp entry, the drop slip (R125), the ageing of a new head (R131), the
survey's sample (R152) and the read that it starts (R118). -/

namespace Sys2Proof.Laws

open Sys2Proof.Machine

/-! ## The set (R41 steps 1 and 2) -/

section

variable {k : Scope} {s v : State} {r : RingId} {x : Ring} {a : List UpResponse} {i : List Issue} {gap : Bool}

theorem writeStamp_rest (s : State) (r : RingId) (p : Nat) (e : Stamp) :
    s.writeStamp r p e = { s with stamps := (s.writeStamp r p e).stamps } := by
  unfold State.writeStamp
  split <;> rfl

theorem stampOf_eq (x : Ring) (now : Time) (gap : Bool) : x.stampOf now gap = x.publishedStamp now gap := by
  unfold Ring.stampOf Ring.publishedStamp CheckMode.stampState
  cases x.config.checkMode <;> rfl

theorem Acts.writeStamp (acts : Acts k r s v x a i) (p : Nat) (e : Stamp) :
    Acts .wide r s (v.writeStamp r p e) x a i := by
  rw [writeStamp_rest]
  generalize (v.writeStamp r p e).stamps = stamps
  exact ⟨acts.ring, acts.others, by conv_lhs => rw [acts.frame], fun narrow => absurd rfl narrow,
    fun narrow => absurd rfl narrow, nofun⟩

theorem Acts.enterSet (acts : Acts k r s v x a i) (gap : Bool) :
    Acts .wide r s (v.enterSet r gap) { x with occ := x.occ + 1 } a i :=
  (acts.writeStamp _ _).modRing (fun x => { x with occ := x.occ + 1 })

theorem enterSet_rest (s : State) (r : RingId) (gap : Bool) : s.enterSet r gap = { s with
    stamps := (s.enterSet r gap).stamps
    rings := (s.enterSet r gap).rings } := by
  unfold State.enterSet
  dsimp only
  rw [writeStamp_rest]
  rfl

/-- The entries after the set: the open slot's, and the others as they were. -/
theorem stamps_enterSet (wf : SparseWf Stamp.zero s.stamps) {position b : Nat}
    (is : position = ((s.ring r).t + (s.ring r).occ) % (s.ring r).config.slots)
    (block : (s.ring r).blocks[position / 64]? = some b) (n : Nat) :
    sparseGet Stamp.zero (s.enterSet r gap).stamps n =
      if n = b * 64 + position % 64 then (s.ring r).publishedStamp s.timebase gap
      else sparseGet Stamp.zero s.stamps n := by
  have index : (s.ring r).stampIndex (s.ring r).openPosition = some (b * 64 + position % 64) := by
    subst is
    unfold Ring.stampIndex
    rw [show (s.ring r).blocks[(s.ring r).openPosition / Config.blockEntries]? = some b from block]
    rfl
  have written : (s.enterSet r gap).stamps =
      sparsePut Stamp.zero s.stamps (b * 64 + position % 64) ((s.ring r).publishedStamp s.timebase gap) := by
    rw [← stampOf_eq]
    show (s.writeStamp r (s.ring r).openPosition _).stamps = _
    unfold State.writeStamp
    rw [index]
  rw [written]
  split
  next same =>
    rw [same]
    exact sparseGet_put_self _ _ _ wf
  next other => exact sparseGet_put_other _ _ other wf

/-- The entry of the slot that has been entered. -/
theorem stampAt_enterSet (wf : SparseWf Stamp.zero s.stamps) {position : Nat}
    (is : position = ((s.ring r).t + (s.ring r).occ) % (s.ring r).config.slots)
    (held : (s.ring r).blocks[position / 64]? ≠ none) :
    (s.enterSet r gap).stampAt r position = (s.ring r).publishedStamp s.timebase gap := by
  obtain ⟨b, block⟩ := Option.ne_none_iff_exists'.1 held
  have blocks : ((s.enterSet r gap).ring r).blocks = (s.ring r).blocks := by
    rw [((Acts.refl .loud r s).enterSet gap).ring]
  have read : (s.enterSet r gap).stampAt r position =
      sparseGet Stamp.zero (s.enterSet r gap).stamps (b * 64 + position % 64) := by
    unfold State.stampAt Ring.stampIndex
    rw [blocks, show (s.ring r).blocks[position / Config.blockEntries]? = some b from block]
    rfl
  rw [read, stamps_enterSet wf is block, if_pos rfl]

/-! ## The drop slip (R125) -/

/-- The ring once the slip that its occ calls for has dropped its slots. -/
def slipped (x : Ring) : Ring :=
  if x.slipCount = 0 then x
  else { x.departN x.slipCount with events := x.events.report 0x200#18 8 x.slipCount }

theorem acts_dropSlip (acts : Acts k r s v x a i) (loud : k ≠ .exact) :
    Acts k r s (v.dropSlip r) (slipped x) a i := by
  unfold State.dropSlip slipped
  rw [acts.ring]
  dsimp only
  split
  · exact acts
  · exact (acts.modRing (fun y => y.departN x.slipCount)).report loud .slipDrop .slipDropped x.slipCount

theorem slipped_message (message : x.config.kind = .message) : slipped x = x :=
  if_pos (if_neg fun h => nomatch (message.symm.trans h.1 : Kind.message = .paced))

theorem slipped_below (below : x.occ ≤ x.config.highMark.toNat) : slipped x = x :=
  if_pos (if_neg fun h => absurd h.2 (Nat.not_lt.2 below))

theorem slipCount_above (paced : x.config.kind = .paced) (above : x.config.highMark.toNat < x.occ) :
    x.slipCount = x.occ - x.config.centre.toNat := if_pos ⟨paced, above⟩

/-! ## The ageing of a new head (R131) -/

/-- Whatever is left to age: some heads may depart, and the timer may be armed. -/
theorem acts_armAge_any (fuel : Nat) : ∀ {v : State} {x : Ring}, Acts .loud r s v x a i →
    ∃ t occ retained timer m, Acts .loud r s (State.armAge fuel v r)
      { x with
        t := t
        occ := occ
        retained := retained
        ageTimer := timer
        events := reportTimes x.events 0x800#18 10 m } a i := by
  induction fuel with
  | zero =>
    intro v x acts
    refine ⟨x.t, x.occ, x.retained, none, 0, ?_⟩
    rw [reportTimes_zero]
    exact acts.modRing _
  | succ fuel ih =>
    intro v x acts
    unfold State.armAge
    dsimp only
    split
    · refine ⟨x.t, x.occ, x.retained, none, 0, ?_⟩
      rw [reportTimes_zero]
      exact acts.modRing _
    · split
      · obtain ⟨t, occ, retained, timer, m, aged⟩ := ih (acts_ageOutHead acts)
        refine ⟨t, occ, retained, timer, m + 1, aged.cast ?_ rfl rfl⟩
        rw [← reportTimes_report]
        rfl
      · refine ⟨x.t, x.occ, x.retained,
          some ((v.ring r).config.ageTimerFrom (v.stampAt r (v.ring r).t).commitTime), 0, ?_⟩
        rw [reportTimes_zero]
        exact acts.modRing _

theorem acts_publishAge_any (acts : Acts .loud r s v x a i) (changed : Bool) :
    ∃ t occ retained timer m, Acts .loud r s (v.publishAge r changed)
      { x with
        t := t
        occ := occ
        retained := retained
        ageTimer := timer
        events := reportTimes x.events 0x800#18 10 m } a i := by
  cases changed with
  | false =>
    refine ⟨x.t, x.occ, x.retained, x.ageTimer, 0, ?_⟩
    rw [reportTimes_zero]
    exact acts
  | true => exact acts_armAge_any _ acts

/-- No head ages on this ring. -/
theorem acts_publishAge_none (acts : Acts k r s v x a i) (never : x.agesOut = false) (changed : Bool) :
    Acts k r s (v.publishAge r changed) { x with ageTimer := if changed then none else x.ageTimer } a i := by
  cases changed with
  | false => exact acts
  | true => exact acts_rearmAge_none acts (.inr never)

/-! ## The survey's sample of a publish (R152) -/

/-- What a publish of ring `r`, with `occ` slots published then, does to the survey. -/
def PublishSampled (s t : State) (r : RingId) (occ : Nat) : Prop :=
  (s.survey.state = .sampling ∧ s.survey.setup.trigger = .commit ∧ s.survey.setup.source = r →
    SampledTo s.survey s.globalFlags s.timebase occ t.survey t.globalFlags) ∧
  (¬(s.survey.state = .sampling ∧ s.survey.setup.trigger = .commit ∧ s.survey.setup.source = r) →
    t.survey = s.survey ∧ t.globalFlags = s.globalFlags)

theorem publishSampled_surveyPublish (s : State) (r : RingId) (occ : Nat) :
    PublishSampled s (s.surveyPublish r occ) r occ := by
  unfold State.surveyPublish
  dsimp only
  by_cases watched : s.survey.state = .sampling ∧ s.survey.setup.trigger = .commit ∧ s.survey.setup.source = r
  · rw [if_pos watched]
    exact ⟨fun _ => sampledTo_surveySample s _, fun not => absurd watched not⟩
  · rw [if_neg watched]
    exact ⟨fun yes => absurd yes watched, fun _ => ⟨rfl, rfl⟩⟩

theorem publishSampled_congr {t s' t' : State} {occ : Nat} (h : PublishSampled s t r occ)
    (survey : s'.survey = s.survey) (flags : s'.globalFlags = s.globalFlags) (time : s'.timebase = s.timebase)
    (survey' : t'.survey = t.survey) (flags' : t'.globalFlags = t.globalFlags) : PublishSampled s' t' r occ := by
  unfold PublishSampled
  rw [survey, flags, time, survey', flags']
  exact h

theorem Acts.surveyPublish (acts : Acts k r s v x a i) (reach : k = .seen ∨ k = .wide) (occ : Nat) :
    Acts k r s (v.surveyPublish r occ) x a i := by
  unfold State.surveyPublish
  dsimp only
  split
  · exact acts.surveySample reach _
  · exact acts

end

/-! ## The publish -/

/-- The slot entered, the slip made, the new head aged and the survey's sample taken. -/
def publishReported (s : State) (r : RingId) (gap : Bool) : State :=
  (((s.enterSet r gap).dropSlip r).publishAge r
    (decide ((s.ring r).occ = 0) || decide (((s.enterSet r gap).ring r).slipCount ≠ 0))).surveyPublish r
      (((s.enterSet r gap).dropSlip r).ring r).occ

section

variable {s v : State} {r : RingId} {x z : Ring} {gap : Bool}

theorem publish_eq (s : State) (r : RingId) (gap : Bool) :
    s.publish r gap = ((publishReported s r gap).startParkedTake r).bump r .published 1 := rfl

/-- The publish up to the read that it starts, by what the slip and the ageing make of the ring. -/
theorem acts_publishReported (aged : Acts .loud r (s.enterSet r gap)
      (((s.enterSet r gap).dropSlip r).publishAge r
        (decide ((s.ring r).occ = 0) || decide (((s.enterSet r gap).ring r).slipCount ≠ 0))) z [] []) :
    Acts .wide r s (publishReported s r gap) z [] [] ∧
      PublishSampled s (publishReported s r gap) r (slipped { s.ring r with occ := (s.ring r).occ + 1 }).occ ∧
      (publishReported s r gap).stamps = (s.enterSet r gap).stamps ∧
      (publishReported s r gap).freeCount = s.freeCount := by
  have entered := (Acts.refl .loud r s).enterSet gap
  have count : (((s.enterSet r gap).dropSlip r).ring r).occ =
      (slipped { s.ring r with occ := (s.ring r).occ + 1 }).occ := by
    rw [(acts_dropSlip entered nofun).ring]
  have reported := aged.expose.surveyPublish (.inl rfl) (((s.enterSet r gap).dropSlip r).ring r).occ
  obtain ⟨survey, flags⟩ := aged.unseen nofun nofun
  have sampled := publishSampled_surveyPublish (((s.enterSet r gap).dropSlip r).publishAge r
    (decide ((s.ring r).occ = 0) || decide (((s.enterSet r gap).ring r).slipCount ≠ 0))) r
    (((s.enterSet r gap).dropSlip r).ring r).occ
  have rest := enterSet_rest s r gap
  refine ⟨entered.trans reported.widen, ?_, (reported.quiet nofun).1, (reported.quiet nofun).2.trans (by rw [rest])⟩
  rw [← count]
  refine publishSampled_congr sampled ?_ ?_ ?_ rfl rfl
  · rw [survey, rest]
  · rw [flags, rest]
  · rw [aged.timebase, rest]

theorem startParkedTake_idle (idle : (v.ring r).take.head.isParked = false ∨ (v.ring r).config.kind = .paced) :
    v.startParkedTake r = v := by
  unfold State.startParkedTake
  rcases idle with unparked | paced
  · exact if_neg (by simp [unparked])
  · exact if_neg (by simp [paced])

/-- A publish that starts no read. -/
theorem acts_publish_idle (aged : Acts .loud r (s.enterSet r gap)
      (((s.enterSet r gap).dropSlip r).publishAge r
        (decide ((s.ring r).occ = 0) || decide (((s.enterSet r gap).ring r).slipCount ≠ 0))) z [] [])
    (idle : z.take.head.isParked = false ∨ z.config.kind = .paced) :
    Acts .wide r s (s.publish r gap)
        { z with events := { z.events with
          counters := z.events.counters.set 0 (advanceCounter z.events.counters[0] 1) } } [] [] ∧
      PublishSampled s (s.publish r gap) r (slipped { s.ring r with occ := (s.ring r).occ + 1 }).occ ∧
      (s.publish r gap).stamps = (s.enterSet r gap).stamps ∧ (s.publish r gap).freeCount = s.freeCount := by
  obtain ⟨reported, sampled, kept⟩ := acts_publishReported aged
  rw [publish_eq, startParkedTake_idle (by rw [reported.ring]; exact idle)]
  exact ⟨reported.bump .published 1, publishSampled_congr sampled rfl rfl rfl rfl rfl, kept⟩

/-- The publish on a MESSAGE ring: no slip, and no head that ages. -/
theorem aged_message (message : (s.ring r).config.kind = .message) : Acts .loud r (s.enterSet r gap)
    (((s.enterSet r gap).dropSlip r).publishAge r
      (decide ((s.ring r).occ = 0) || decide (((s.enterSet r gap).ring r).slipCount ≠ 0)))
    { s.ring r with
      occ := (s.ring r).occ + 1
      ageTimer := if (s.ring r).occ = 0 then none else (s.ring r).ageTimer } [] [] := by
  have entered := (Acts.refl .loud r s).enterSet gap
  have slips := acts_dropSlip ((Acts.refl .loud r (s.enterSet r gap)).cast entered.ring rfl rfl) nofun
  rw [slipped_message (x := { s.ring r with occ := (s.ring r).occ + 1 }) message] at slips
  have none : ((s.enterSet r gap).ring r).slipCount = 0 := by
    rw [entered.ring]
    exact if_neg fun h => nomatch (message.symm.trans h.1 : Kind.message = .paced)
  have aged := acts_publishAge_none slips (Bool.eq_false_iff.2 fun ages =>
    nomatch (message.symm.trans ((agesOut_iff _).1 ages).1 : Kind.message = .paced)) (decide ((s.ring r).occ = 0))
  rw [none, show decide (0 ≠ 0) = false from rfl, Bool.or_false]
  refine aged.cast ?_ rfl rfl
  simp

/-- What the published slot's read takes: the ring of an empty MESSAGE ring whose parked read has taken the slot
just published (R41, R118). -/
def parkedTaken (x : Ring) (p : TakeReq) (e : Stamp) (number : BitVec 8) (now : Time) (early : Bool) : Ring :=
  { x.startReported now early with
    t := (x.t + 1) % x.config.slots
    occ := 0
    ageTimer := .none
    take := x.takenBy p x.t e number false now }

/-- A publish on an empty MESSAGE ring with a read parked alone. -/
theorem acts_publish_parked {park : Timer} {p : TakeReq} {number : BitVec 8} {early : Bool} {e : Stamp}
    (wf : SparseWf Stamp.zero s.stamps) (message : (s.ring r).config.kind = .message) (empty : (s.ring r).occ = 0)
    (inside : (s.ring r).t < (s.ring r).config.slots) (held : (s.ring r).blocks[(s.ring r).t / 64]? ≠ none)
    (absent : (s.ring r).take.record.present = false) (parked : (s.ring r).take.head = .parked park)
    (alone : (s.ring r).take.hold = [p]) (read : p.release = false) (start : p.offset = 0)
    (entry : e = (s.ring r).publishedStamp s.timebase gap) (next : (s.ring r).take.NumbersNext number)
    (is : early = true ↔ (s.ring r).EarlyAt s.timebase) :
    ∃ w, PublishSampled s w r 1 ∧ w.timebase = s.timebase ∧ TakeSampled w (s.publish r gap) r 0 e ∧
      (s.publish r gap).stamps = (s.enterSet r gap).stamps ∧ (s.publish r gap).freeCount = s.freeCount ∧
      Acts .wide r s (s.publish r gap)
        { parkedTaken (s.ring r) p e number s.timebase early with
          events := { (parkedTaken (s.ring r) p e number s.timebase early).events with
            counters := (parkedTaken (s.ring r) p e number s.timebase early).events.counters.set 0
              (advanceCounter (parkedTaken (s.ring r) p e number s.timebase early).events.counters[0] 1) } }
        [] [(s.ring r).startingRead r p (s.ring r).t e] := by
  obtain ⟨reported, sampled, stamps, free⟩ := acts_publishReported (aged_message (gap := gap) message)
  rw [slipped_message (x := { s.ring r with occ := (s.ring r).occ + 1 }) message] at sampled
  dsimp only at sampled
  rw [empty] at sampled
  rw [empty, if_pos rfl] at reported
  have newest : (publishReported s r gap).stampAt r (s.ring r).t = e := by
    have position : (s.ring r).t = ((s.ring r).t + (s.ring r).occ) % (s.ring r).config.slots := by
      rw [empty, Nat.add_zero, Nat.mod_eq_of_lt inside]
    rw [entry, ← stampAt_enterSet wf position held]
    refine stampAt_congr ?_ stamps _
    rw [reported.ring, ((Acts.refl .loud r s).enterSet gap).ring]
  have time := reported.timebase
  rw [publish_eq]
  generalize publishReported s r gap = w at reported sampled stamps free newest time
  have queue : w.startParkedTake r = w.judgeTakeQueue r := by
    unfold State.startParkedTake
    rw [reported.ring]
    exact if_pos (by simp [parked, HeadHold.isParked, message])
  obtain ⟨cleared, loop⟩ := acts_judgeTakeQueue ((Acts.refl .loud r w).cast reported.ring rfl rfl)
  have waiting := cleared.cast (y := withTake { s.ring r with occ := 0 + 1, ageTimer := .none } p)
    (by unfold withTake; rw [← alone]) rfl rfl
  have judged : (w.modTake r (fun p => { p with head := .clear })).judgeTake r p =
      (((w.modTake r (fun p => { p with head := .clear })).takeHead r).serveRead r p, none) := by
    rw [judgeTake_absent read (by rw [waiting.ring]; exact absent),
      judgeAbsent_message start (by rw [waiting.ring]; exact message), judgeMessage_takes]
    rw [waiting.ring]
    exact Nat.one_ne_zero
  generalize w.modTake r (fun p => { p with head := .clear }) = v at loop waiting judged
  have blocks : (w.ring r).blocks = (s.ring r).blocks := by rw [reported.ring]
  obtain ⟨started, took⟩ := acts_takeHead_alone waiting blocks.symm next (time ▸ is) newest.symm (.inl rfl)
  have served := acts_takeStarts waiting.ring start judged started rfl rfl
  obtain ⟨survey, flags⟩ := (acts_takeStarts waiting.ring start judged
    ((Acts.refl .loud r (v.takeHead r)).cast started.ring rfl rfl) rfl rfl).unseen nofun nofun
  have run : w.startParkedTake r = State.takeLoop 1 v r := by
    rw [queue, loop]
    exact congrArg (fun n => State.takeLoop n v r) (congrArg List.length alone)
  rw [run]
  refine ⟨w, sampled, time, takeSampled_congr took rfl rfl rfl survey flags, (served.quiet nofun).1.trans stamps,
    (served.quiet nofun).2.trans free,
    (reported.trans (served.widen.bump .published 1)).cast ?_ rfl rfl⟩
  rw [time]
  unfold parkedTaken takeStarted Ring.startReported Ring.departN withTake
  simp [message]
  exact ⟨rfl, rfl⟩

end

end Sys2Proof.Laws

/-! PROOFS. The outcomes of put writes (R58, R62 to R64, R73), with what is held behind the slot (R52); with O32. -/

namespace Sys2Proof.Laws

open Sys2Proof.Machine

/-! ## The event that answers a tag -/

section

variable {s v : State} {r : RingId} {i : DTag} {en : TagEntry} {x y : Ring} {a : List UpResponse} {issues : List Issue}

theorem noDownstream_setTag (free : en.busyOf r = false) :
    (s.setTag i en).noDownstream r ↔ s.noOtherDownstream r i := by
  unfold State.noDownstream State.noOtherDownstream
  refine and_congr_left' ⟨fun none j other => ?_, fun none j => ?_⟩
  · have entry := none j
    unfold State.setTag at entry
    simpa [Vector.getElem_set, Fin.val_ne_of_ne other.symm] using entry
  · unfold State.setTag
    by_cases same : j = i
    · subst same
      simpa using free
    · have entry := none j same
      simpa [Vector.getElem_set, Fin.val_ne_of_ne (Ne.symm same)] using entry

/-- An event that answers tag `i` and hands nothing down. -/
theorem settledAt_of_acts (free : ∀ p, en.busyOf p = false) (acts : Acts .loud r (s.setTag i en) v y a []) :
    SettledAt s (v.settle r) r i y ∧ (∀ p, p ≠ r → (v.settle r).ring p = s.ring p) ∧
      v.settle r = { s.answered a with
        tags := s.tags.set i en
        rings := (v.settle r).rings
        survey := (v.settle r).survey
        globalFlags := (v.settle r).globalFlags
        driver := (v.settle r).driver } := by
  refine ⟨fun enters is => ?_, (settle_cases acts Iff.rfl).2.2.1, (settle_cases acts Iff.rfl).2.2.2⟩
  obtain ⟨idles, stays, -, -⟩ := settle_cases acts (meets := enters) (by
    rw [is]
    exact and_congr_left' (noDownstream_setTag (free r)))
  exact ⟨fun meets => ⟨(idles meets).1, sourceLost_congr (idles meets).2 rfl rfl rfl rfl⟩, stays⟩

/-- An event after which the ring runs on. -/
theorem settledAt_of_stays {t : State} (own : t.ring r = y) (running : y.state ≠ .aborting)
    (busy : y.state = .draining → y.put.phase ≠ .none ∨ y.occ ≠ 0) (survey : t.survey = s.survey)
    (flags : t.globalFlags = s.globalFlags) : SettledAt s t r i y := by
  refine fun enters is => ⟨fun meets => ?_, fun _ => ⟨own, survey, flags⟩⟩
  rcases (is.1 meets).2 with aborting | ⟨draining, phase, empty, -⟩
  · exact absurd aborting running
  · exact ((busy draining).elim (fun not => not phase) (fun not => not empty)).elim

end

section

variable {s : State} {r : RingId} {i : DTag} {q : Requester} {u : UTag} {g : BitVec 8} {timeout : Timer}
  {c : Instr} {status : Status} {tags : Vector TagEntry 64} {e : WriteEntry}

/-- The command that brings the outcome of a put write: what it counts, records and answers, and what follows. -/
theorem exec_putOutcome (up : s.resetN = true) (busy : s.tags[i] = .busy (.put r) q u g timeout)
    (outcome : s.outcomeBy i timeout c status tags)
    (found : (s.ring r).put.writes.find? (fun e => e.requester == q && e.tag == u) = some e) :
    ∃ en v, (∀ p, en.busyOf p = false) ∧ s.tags.set i en = tags ∧
      exec c s = .next ((v.afterOutcome r ((s.ring r).put.isCurrent g)).settle r) ∧
      Acts .loud r (s.setTag i en) v ((s.ring r).outcomeCounted q u g e status s.timebase)
        ((s.ring r).outcomeAnswer q u status) [] := by
  obtain ⟨en, data, run, set, free⟩ := exec_outcome up busy outcome
  refine ⟨en, outcomeTaken (s.setTag i en) r q u g e status, free, set, ?_, acts_outcomeTaken⟩
  rw [run]
  show Host.Outcome.next (((s.setTag i en).putOutcome r q u g status).settle r) = _
  rw [putOutcome_eq (v := s.setTag i en) found]
  rfl

end

/-! ## The queue behind the slot (R52, R58, R63 step 5) -/

section

variable {k : Scope} {s v : State} {r : RingId} {x y : Ring} {a more : List UpResponse} {issues handed : List Issue}
  {p : Requester} {u : UTag} {h : Word} {ws : List Word}

/-- Nothing is held. -/
theorem judgePutQueue_none (hold : (v.ring r).put.hold = []) (clear : (v.ring r).put.head = .clear)
    (acts : Acts k r s v x a issues) : Acts k r s (v.judgePutQueue r) x a issues := by
  obtain ⟨cleared, loop⟩ := acts_judgePutQueue acts
  rw [acts.ring] at hold clear
  rw [loop, putLoop_empty (by rw [cleared.ring]; exact hold)]
  refine cleared.cast ?_ rfl rfl
  unfold withHold
  rw [← clear]

/-- One header is held, and restarts the slot FILLING. -/
theorem acts_queueRestarts (acts : Acts .loud r s v x a issues) (alone : x.put.hold = [burstReq p u h ws])
    (running : x.state = .running) (filling : x.put.phase = .filling) (fits : x.config.burstFits h ws)
    (clear : x.put.generationClear) :
    Acts .loud r s (v.judgePutQueue r) (x.restartedBy p u h ws s.timebase) a
      (issues ++ [x.openingWrite r p u h ws]) := by
  obtain ⟨cleared, loop⟩ := acts_judgePutQueue acts
  rw [alone, withHold_singleton] at cleared
  rw [loop, alone]
  exact acts_restarts cleared running filling fits clear

/-- A queue served hands nothing down, or leaves the ring RUNNING. -/
theorem queueServed_keeps {now : Time} {hold : List PutReq} (served : x.QueueServed r now hold y more handed) :
    y.state = x.state ∧ y.occ = x.occ ∧ (handed = [] ∨ y.state = .running) := by
  rcases served with ⟨-, rfl, -, rfl⟩ | ⟨-, judged, rfl⟩ | ⟨p, u, h, ws, -, running, -, -, -, way⟩
  · exact ⟨rfl, rfl, .inl rfl⟩
  · have kept := queueJudged_keeps now hold x
    rw [← judged] at kept
    have state := congrArg Ring.state kept
    have occ := congrArg Ring.occ kept
    exact ⟨state, occ, .inl rfl⟩
  · rcases way with ⟨-, rfl, -⟩ | ⟨-, rfl, -⟩
    · exact ⟨rfl, rfl, .inr running⟩
    · exact ⟨rfl, rfl, .inr running⟩

end

/-! ## The slot published (R63 step 4) -/

section

variable {s v : State} {r : RingId} {x y : Ring} {a : List UpResponse} {issues : List Issue} {w : UReq} {gap : Bool}
  {j : Judgement}

/-- A commit completion that publishes, up to the queue behind the slot. -/
theorem acts_commitPublished (acts : Acts .loud r s v x a [])
    (judged : j = x.align.judge x.config s.timebase x.put.marker x.put.sequence)
    (reaches : x.reachesAlign = true) (kept : j.decision ≠ .drop) (isGap : gap = true ↔ j.decision = .publishGap)
    (published : Acts .wide r v (v.publish r gap) y [] issues) (w : UReq) :
    Acts .wide r s ((v.verdicts r (some w)).modPut r closeSlot) (alignPublished y j gap)
        (a ++ [⟨w.requester, w.tag, .ok, []⟩]) issues ∧
      Acts .loud r (v.publish r gap) ((v.verdicts r (some w)).modPut r closeSlot) (alignPublished y j gap)
        [⟨w.requester, w.tag, .ok, []⟩] [] := by
  have whole := acts_verdicts_published (k' := .wide) acts w judged reaches kept isGap nofun (acts.widen.trans published)
  have last := acts_verdicts_published (k' := .loud) acts w judged reaches kept isGap nofun
    ((Acts.refl .loud r (v.publish r gap)).cast published.ring rfl rfl)
  exact ⟨whole.cast rfl (by rw [List.append_nil]) rfl, last⟩

/-- The ring of a MESSAGE publish. -/
theorem alignPublished_message (timer : x.ageTimer = none) (isGap : gap = true ↔ j.decision = .publishGap) :
    alignPublished { x with
      occ := x.occ + 1
      ageTimer := if x.occ = 0 then none else x.ageTimer
      events := { x.events with counters := x.events.counters.set 0 (advanceCounter x.events.counters[0] 1) } } j
      gap = x.messagePublished j := by
  unfold alignPublished Ring.messagePublished RingEvents.report
  rw [timer, ite_self]
  cases gap with
  | false =>
    rw [if_neg (fun h => Bool.noConfusion (isGap.2 h))]
    rw [← timer]
    rfl
  | true =>
    have flags : x.events.flags ||| 0x8#18 ||| alignBits j.flag = x.events.flags ||| alignBits j.flag ||| 0x8#18 := by
      rw [BitVec.or_assoc, BitVec.or_comm 0x8#18, ← BitVec.or_assoc]
    rw [if_pos (isGap.1 rfl)]
    dsimp only
    rw [if_pos rfl, if_pos rfl, flags, ← timer]
    rfl

end

/-- The ring after a verdict that has not published stands open to the queue behind it. -/
theorem verdictTaken_closed (x : Ring) (w : UReq) (j : Judgement) (now : Time) :
    (x.verdictTaken w j now).1.put.phase = .none ∧ (x.verdictTaken w j now).1.put.head = .clear ∧
      (x.verdictTaken w j now).1.put.hold = x.put.hold := by
  unfold Ring.verdictTaken
  split
  · exact ⟨rfl, rfl, rfl⟩
  · split
    · exact ⟨rfl, rfl, rfl⟩
    · split <;> exact ⟨rfl, rfl, rfl⟩

theorem verdictTaken_published {x : Ring} (reaches : x.reachesAlign = true) {j : Judgement} (kept : j.decision ≠ .drop)
    (w : UReq) (now : Time) : x.verdictTaken w j now = (x.messagePublished j, .ok) := by
  obtain ⟨sound, checked⟩ := (reachesAlign_iff x).1 reaches
  unfold Ring.verdictTaken
  rw [sound, if_neg Bool.false_ne_true, if_neg checked, if_neg kept]

section

variable {k : Scope} {s v : State} {r : RingId} {x : Ring} {a : List UpResponse} {i : List Issue}

/-- The Ring Table's test behind an event. -/
theorem acts_settle (acts : Acts .seen r s v x a i) :
    Acts .seen r s (v.settle r) ((v.settle r).ring r) a i := by
  cases meets : v.idleCondition r with
  | false =>
    have settled := acts.settle_stays meets
    exact settled.cast settled.ring.symm rfl rfl
  | true =>
    have settled := acts.settle_enters meets
    exact settled.cast settled.ring.symm rfl rfl

/-- Where slots are published, the ring does not enter IDLE. -/
theorem Acts.idleCondition_of_occ (acts : Acts k r s v x a i) (serving : x.state ≠ .aborting) (published : x.occ ≠ 0) :
    v.idleCondition r = false := by
  rw [← Bool.not_eq_true, idleCondition_iff_enters, acts.ring]
  rintro ⟨-, aborting | ⟨-, -, empty, -⟩⟩
  · exact serving aborting
  · exact published empty

/-- A slip's ring, field by field. -/
theorem slipped_eq (x : Ring) : slipped x = { x with
    t := (slipped x).t
    occ := (slipped x).occ
    retained := (slipped x).retained
    events := reportTimes x.events 0x200#18 8 x.slipCount } := by
  by_cases none : x.slipCount = 0
  · rw [none, reportTimes_zero, slipped, if_pos none]
  · rw [reportTimes_of_ne_zero _ _ _ none, slipped, if_neg none]
    rfl

/-- The ring that some heads have left, by a slip or by age. -/
def departed (x : Ring) (t occ : Nat) (retained : Bool) (timer : Option Timer) (n m : Nat) : Ring :=
  { x with
    t := t
    occ := occ
    retained := retained
    ageTimer := timer
    events := reportTimes (reportTimes x.events 0x200#18 8 n) 0x800#18 10 m }

/-- The slip and the ageing of any publish. -/
theorem aged_any (s : State) (r : RingId) (gap : Bool) : ∃ t occ retained timer n m,
    Acts .loud r (s.enterSet r gap)
      (((s.enterSet r gap).dropSlip r).publishAge r
        (decide ((s.ring r).occ = 0) || decide (((s.enterSet r gap).ring r).slipCount ≠ 0)))
      (departed (s.ring r) t occ retained timer n m) [] [] := by
  have entered := (Acts.refl .loud r s).enterSet gap
  have slips := acts_dropSlip ((Acts.refl .loud r (s.enterSet r gap)).cast entered.ring rfl rfl) nofun
  rw [slipped_eq] at slips
  obtain ⟨t, occ, retained, timer, m, aged⟩ := acts_publishAge_any slips
    (decide ((s.ring r).occ = 0) || decide (((s.enterSet r gap).ring r).slipCount ≠ 0))
  exact ⟨t, occ, retained, timer, _, m, aged⟩

end

/-- Reports of one kind leave the other counters. -/
theorem counter_reportTimes (e : RingEvents) (mask : BitVec 18) {i j : Fin 15} (other : i ≠ j) (n : Nat) :
    (reportTimes e mask i n).counters[j] = e.counters[j] :=
  Vector.getElem_set_ne i.isLt j.isLt (Fin.val_ne_of_ne other)

theorem counter_report (e : RingEvents) (mask : BitVec 18) {i j : Fin 15} (other : i ≠ j) (n : Nat) :
    (e.report mask i n).counters[j] = e.counters[j] :=
  Vector.getElem_set_ne i.isLt j.isLt (Fin.val_ne_of_ne other)

/-! ## A completion on a serving ring (R63) -/

section

variable {s v : State} {r : RingId} {i : DTag} {en : TagEntry} {x y final : Ring} {w : UReq} {j : Judgement}
  {answers more : List UpResponse} {issues : List Issue} {verdict : Status}

/-- The completion of a slot that is not published, and the queue behind it. -/
theorem settled_unpublished (free : ∀ p, en.busyOf p = false) (acts : Acts .loud r (s.setTag i en) v x answers [])
    (judged : j = x.align.judge x.config s.timebase x.put.marker x.put.sequence)
    (unpublished : ¬(x.reachesAlign = true ∧ j.decision ≠ .drop))
    (taken : (y, verdict) = x.verdictTaken w j s.timebase)
    (served : y.QueueServed r s.timebase x.put.hold final more issues) {t : State}
    (is : t = (((v.verdicts r (some w)).modPut r closeSlot).judgePutQueue r).settle r) :
    SettledAt s t r i final ∧ (∀ p, p ≠ r → t.ring p = s.ring p) ∧ t.stamps = s.stamps ∧
      t = { s.answered (answers ++ ⟨w.requester, w.tag, verdict, []⟩ :: more) with
        tags := s.tags.set i en
        rings := t.rings
        stamps := t.stamps
        survey := t.survey
        globalFlags := t.globalFlags
        driver := t.driver
        issueQueue := s.issueQueue ++ issues } := by
  obtain ⟨closed, clear, hold⟩ := verdictTaken_closed x w j s.timebase
  have ended := acts_verdicts_unpublished acts nofun w judged unpublished
  rw [show x.verdictTaken w j (s.setTag i en).timebase = (y, verdict) from taken.symm] at ended
  rw [← taken] at closed clear hold
  have queue := (acts_queueServed ended closed clear (hold.symm ▸ served)).cast rfl (List.append_assoc _ _ _) rfl
  subst is
  have whole := acts_settle queue.expose
  have frame := whole.frame
  rw [(whole.quiet nofun).2] at frame
  refine ⟨?_, whole.others, (whole.quiet nofun).1, frame⟩
  obtain ⟨-, -, quiet | running⟩ := queueServed_keeps served
  · exact (settledAt_of_acts free (queue.cast rfl rfl quiet)).1
  · have stays := queue.settle_stays (queue.idleCondition_of_state (.inr running))
    obtain ⟨survey, flags⟩ := stays.unseen nofun nofun
    exact settledAt_of_stays stays.ring (ne_of_eq_of_ne running nofun)
      (fun draining => nomatch running.symm.trans draining) survey flags

/-- The completion of a slot that is published on a MESSAGE ring without a parked read, and the queue behind it. -/
theorem settled_published (acts : Acts .loud r (s.setTag i en) v x answers [])
    (judged : j = x.align.judge x.config s.timebase x.put.marker x.put.sequence)
    (reaches : x.reachesAlign = true) (kept : j.decision ≠ .drop) (message : x.config.kind = .message)
    (unparked : x.take.head.isParked = false) (timer : x.ageTimer = none) (serving : x.state ≠ .aborting)
    (served : (x.messagePublished j).QueueServed r s.timebase x.put.hold final more issues) {t : State}
    (is : t = (((v.verdicts r (some w)).modPut r closeSlot).judgePutQueue r).settle r) :
    t.ring r = final ∧ PublishSampled s t r (x.occ + 1) ∧ (∀ p, p ≠ r → t.ring p = s.ring p) ∧
      t.stamps = (v.enterSet r (decide (j.decision = .publishGap))).stamps ∧
      t = { s.answered (answers ++ ⟨w.requester, w.tag, .ok, []⟩ :: more) with
        tags := s.tags.set i en
        rings := t.rings
        stamps := t.stamps
        survey := t.survey
        globalFlags := t.globalFlags
        driver := t.driver
        issueQueue := s.issueQueue ++ issues } := by
  obtain rfl : v.ring r = x := acts.ring
  have isGap : decide (j.decision = .publishGap) = true ↔ j.decision = .publishGap := decide_eq_true_iff
  obtain ⟨published, sampled, stamps, free⟩ := acts_publish_idle
    (aged_message (gap := decide (j.decision = .publishGap)) message) (.inl unparked)
  obtain ⟨whole, last⟩ := acts_commitPublished acts judged reaches kept isGap published w
  have ring := alignPublished_message timer isGap
  have ended := whole.cast ring rfl rfl
  subst is
  generalize (v.verdicts r (some w)).modPut r closeSlot = u at ended last
  have served : ((v.ring r).messagePublished j).QueueServed r u.timebase (v.ring r).put.hold final more issues := by
    rw [ended.timebase]
    exact served
  have queue := acts_queueServed ((Acts.refl .loud r u).cast ended.ring rfl rfl) rfl rfl served
  obtain ⟨state, occ, -⟩ := queueServed_keeps served
  have whole := (ended.trans queue.widen).cast rfl (List.append_assoc answers _ _) rfl
  have stays := whole.idleCondition_of_occ (by rw [state]; exact serving)
    (by rw [occ]; exact Nat.succ_ne_zero (v.ring r).occ)
  have settled := whole.settle_stays stays
  obtain ⟨survey, flags⟩ := (queue.settle_stays stays).unseen nofun nofun
  obtain ⟨survey', flags'⟩ := last.unseen nofun nofun
  obtain ⟨survey₀, flags₀⟩ := acts.unseen nofun nofun
  obtain ⟨stamps', free'⟩ := last.quiet nofun
  obtain ⟨stamps'', free''⟩ := (queue.settle_stays stays).quiet nofun
  refine ⟨settled.ring, ?_, settled.others, stamps''.trans (stamps'.trans stamps), ?_⟩
  · rw [slipped_message (x := { v.ring r with occ := (v.ring r).occ + 1 }) message] at sampled
    exact publishSampled_congr sampled survey₀.symm flags₀.symm acts.timebase.symm (survey.trans survey')
      (flags.trans flags')
  · have frame := settled.frame
    rw [free''.trans (free'.trans (free.trans (acts.quiet nofun).2))] at frame
    exact frame

end

theorem counter_openedBy (x : Ring) (p : Requester) (u : UTag) (h : Word) (ws : List Word) :
    (x.openedBy p u h ws).events.counters[(0 : Fin 15)] = x.events.counters[(0 : Fin 15)] := by
  unfold Ring.openedBy
  dsimp only
  split
  · exact counter_report _ _ (by decide) _
  · rfl

theorem take_openedBy {x : Ring} (message : x.config.kind = .message) {p : Requester} {u : UTag} {h : Word}
    {ws : List Word} : (x.openedBy p u h ws).take = x.take := by
  unfold Ring.openedBy
  rw [takeInTheWay_message message]
  rfl

theorem counter_alignPublished (y : Ring) (j : Judgement) (gap : Bool) :
    (alignPublished y j gap).events.counters[(0 : Fin 15)] = y.events.counters[(0 : Fin 15)] := by
  cases gap
  · rfl
  · exact counter_report y.events 0x8#18 (i := 3) (by decide) 1

/-- The completion of a slot that is published on a RUNNING ring, where one header is held that opens the next. -/
theorem acts_commitOpens {s v : State} {r : RingId} {x y : Ring} {w : UReq} {j : Judgement} {gap : Bool}
    {answers : List UpResponse} {issues : List Issue} {p : Requester} {u : UTag} {h : Word} {ws : List Word}
    (acts : Acts .loud r s v x answers [])
    (judged : j = x.align.judge x.config s.timebase x.put.marker x.put.sequence)
    (reaches : x.reachesAlign = true) (kept : j.decision ≠ .drop) (isGap : gap = true ↔ j.decision = .publishGap)
    (published : Acts .wide r v (v.publish r gap) y [] issues) (alone : y.put.hold = [burstReq p u h ws])
    (running : y.state = .running) (fits : y.config.burstFits h ws) (room : y.roomFor)
    (clear : y.put.generationClear) :
    Acts .wide r s ((((v.verdicts r (some w)).modPut r closeSlot).judgePutQueue r).settle r)
      ((alignPublished y j gap).openedBy p u h ws) (answers ++ [⟨w.requester, w.tag, .ok, []⟩])
      (issues ++ [(alignPublished y j gap).openingWrite r p u h ws]) := by
  obtain ⟨whole, -⟩ := acts_commitPublished acts judged reaches kept isGap published w
  have opened := (acts_queueHeader ((Acts.refl .loud r _).cast whole.ring rfl rfl) (.inl nofun) alone running rfl fits
    room).1 clear
  have both := (whole.trans opened.widen).cast rfl (List.append_nil _) rfl
  exact both.settle_stays (both.idleCondition_of_state (.inr running))

/-- The entries after a publish (R49). -/
theorem stamps_published {s v t : State} {r : RingId} {i : DTag} {en : TagEntry} {x : Ring}
    {answers : List UpResponse} {gap : Bool} (acts : Acts .loud r (s.setTag i en) v x answers [])
    (stamps : t.stamps = (v.enterSet r gap).stamps) (wf : SparseWf Stamp.zero s.stamps) {position b : Nat}
    (is : position = (x.t + x.occ) % x.config.slots) (block : x.blocks[position / 64]? = some b) (n : Nat) :
    sparseGet Stamp.zero t.stamps n =
      if n = b * 64 + position % 64 then x.publishedStamp s.timebase gap else sparseGet Stamp.zero s.stamps n := by
  obtain ⟨kept, -⟩ := acts.quiet nofun
  have written := stamps_enterSet (s := v) (r := r) (gap := gap) (position := position) (by rw [kept]; exact wf)
    (by rw [acts.ring]; exact is) (by rw [acts.ring]; exact block) n
  rw [stamps, written, acts.ring, acts.timebase, kept]
  rfl

/-- On an active MESSAGE ring nothing ages out. -/
theorem ageTimer_of_positionsSound {s : State} {r : RingId} (sound : PositionsSound s)
    (message : (s.ring r).config.kind = .message) (active : (s.ring r).state ≠ .idle) :
    (s.ring r).ageTimer = none := by
  have here := sound r
  rw [if_neg active] at here
  obtain ⟨-, -, roles⟩ := here
  rw [message] at roles
  exact roles.2.1

/-- Settles O32: the outcome is counted and answered; then it ends nothing, a wait for a generation, or the commit. -/
theorem putOutcomesAreMatched : Obligations.PutOutcomesAreMatched := by
  rintro s r i q u g timeout c status tags e x answers current up busy outcome found rfl rfl isCurrent
  obtain ⟨en, v, free, rfl, run, acts⟩ := exec_putOutcome up busy outcome found
  rw [← isCurrent_iff] at isCurrent
  have timer : PositionsSound s → ((s.ring r).outcomeCounted q u g e status s.timebase).config.kind = .message →
      ((s.ring r).outcomeCounted q u g e status s.timebase).state ≠ .idle →
      ((s.ring r).outcomeCounted q u g e status s.timebase).ageTimer = none := ageTimer_of_positionsSound
  generalize (s.ring r).outcomeCounted q u g e status s.timebase = x at acts timer
  generalize (s.ring r).outcomeAnswer q u status = answers at acts
  refine ⟨fun more held => ?_, fun p k h ws torn waits clear alone running fits way => ?_,
    fun w open' closes last request => ⟨fun j published sampled y final verdict more issues serving judged isPublished
      sound isSampled taken served => ?_, fun p k h ws j paced running reaches judged kept alone fits clear => ?_,
      fun p d k k' n park h ws j stamp number wf message running reaches judged kept empty absent parked reads room
        inside blocks entry next alone fits clear => ?_, fun aborting none => ?_⟩⟩
  · have same : v.afterOutcome r ((s.ring r).put.isCurrent g) = v := by
      cases now : (s.ring r).put.isCurrent g with
      | true =>
        refine afterOutcome_open ?_
        rw [acts.ring]
        exact more (isCurrent.2 now)
      | false =>
        refine afterOutcome_torn ?_
        rw [acts.ring]
        exact held (fun yes => Bool.noConfusion (now.symm.trans (isCurrent.1 yes)))
    rw [same] at run
    exact ⟨_, run, settledAt_of_acts free acts⟩
  · rw [Bool.eq_false_iff.2 (mt isCurrent.2 torn), afterOutcome_serves (by rw [acts.ring]; exact waits)
      (by rw [acts.ring]; exact clear)] at run
    rcases way with ⟨closed, room⟩ | filling
    · have opened := (acts_queueHeader acts (.inl nofun) alone running closed fits room).1 clear
      have settled := opened.settle_stays (opened.idleCondition_of_state (.inr running))
      refine ⟨_, run, settled.ring.trans (if_neg ?_).symm, settled.others, settled.eq_of_loud nofun nofun⟩
      exact ne_of_eq_of_ne closed nofun
    · have restarted := acts_queueRestarts acts alone running filling fits clear
      have settled := restarted.settle_stays (restarted.idleCondition_of_state (.inr running))
      exact ⟨_, run, settled.ring.trans (if_pos filling).symm, settled.others, settled.eq_of_loud nofun nofun⟩
  · rw [isCurrent.1 open', afterOutcome_completes (by rw [acts.ring]; exact closes) (by rw [acts.ring]; exact last),
      commitCompletion_serving (by rw [acts.ring]; exact request) (by
        rw [acts.ring]
        rcases serving with state | state <;> rw [state] <;> nofun)] at run
    by_cases publishes : published
    · obtain ⟨reaches, kept⟩ := isPublished.1 publishes
      obtain ⟨positions, message, unparked⟩ := sound publishes
      have active : x.state ≠ .idle ∧ x.state ≠ .aborting := by
        rcases serving with state | state <;> rw [state] <;> exact ⟨nofun, nofun⟩
      rw [verdictTaken_published reaches kept] at taken
      obtain ⟨rfl, rfl⟩ := Prod.mk.inj taken
      obtain ⟨own, survey, others, stamps, frame⟩ := settled_published acts judged reaches kept message unparked
        (timer positions message active.1) active.2 served rfl
      obtain ⟨state, occ, -⟩ := queueServed_keeps served
      refine ⟨_, run, fun unsampled => ?_, fun samples => ⟨own, survey.1 (isSampled.1 samples).2⟩, others,
        fun not => absurd publishes not, fun _ wf position b at' block n => ?_, frame⟩
      · obtain ⟨survey, flags⟩ := survey.2 fun samples => unsampled (isSampled.2 ⟨publishes, samples⟩)
        refine settledAt_of_stays own (by rw [state]; exact active.2) (fun _ => .inr ?_) survey flags
        rw [occ]
        exact Nat.succ_ne_zero x.occ
      · exact stamps_published acts stamps wf.1 at' block n
    · obtain ⟨own, others, stamps, frame⟩ := settled_unpublished free acts judged (mt isPublished.2 publishes) taken
        served rfl
      exact ⟨_, run, fun _ => own, fun samples => absurd (isSampled.1 samples).1 publishes, others, fun _ => stamps,
        fun yes => absurd yes publishes, frame⟩
  · rw [isCurrent.1 open', afterOutcome_completes (by rw [acts.ring]; exact closes) (by rw [acts.ring]; exact last),
      commitCompletion_serving (by rw [acts.ring]; exact request)
        (by rw [acts.ring]; exact ne_of_eq_of_ne running nofun)] at run
    have isGap : decide (j.decision = .publishGap) = true ↔ j.decision = .publishGap := decide_eq_true_iff
    obtain ⟨t, occ, retained, armed, n, m, aged⟩ := aged_any v r (decide (j.decision = .publishGap))
    obtain rfl : v.ring r = x := acts.ring
    have published := (acts_publish_idle aged (.inr paced)).1
    have opened := acts_commitOpens (w := w) acts judged reaches kept isGap published alone running fits (.inl paced)
      clear
    refine ⟨_, _, run, rfl, ?_, ?_, opened.upResponses.trans (List.append_assoc _ _ _).symm, ?_, opened.others⟩
    · rw [opened.ring]
      rfl
    · rw [opened.issueQueue, opened.ring]
      rfl
    · rw [opened.ring]
      have before : (departed (v.ring r) t occ retained armed n m).events.counters[(0 : Fin 15)] =
          (v.ring r).events.counters[(0 : Fin 15)] :=
        (counter_reportTimes _ _ (by decide) m).trans (counter_reportTimes _ _ (by decide) n)
      refine (counter_openedBy _ p k h ws).trans ((counter_alignPublished _ j _).trans ?_)
      exact (Vector.getElem_set_self _).trans (congrArg (advanceCounter · 1) before)
  · rw [isCurrent.1 open', afterOutcome_completes (by rw [acts.ring]; exact closes) (by rw [acts.ring]; exact last),
      commitCompletion_serving (by rw [acts.ring]; exact request)
        (by rw [acts.ring]; exact ne_of_eq_of_ne running nofun)] at run
    have isGap : decide (j.decision = .publishGap) = true ↔ j.decision = .publishGap := decide_eq_true_iff
    obtain rfl : v.ring r = x := acts.ring
    obtain ⟨-, -, -, -, -, -, published⟩ := acts_publish_parked (gap := decide (j.decision = .publishGap))
      (number := number) (early := (v.ring r).earlyAt v.timebase) ((acts.quiet nofun).1 ▸ wf.1) message empty inside
      blocks absent parked reads rfl rfl (entry.trans (by rw [acts.timebase]; rfl)) next (earlyAt_iff _ _)
    rw [acts.timebase] at published
    have opened := acts_commitOpens (w := w) acts judged reaches kept isGap published alone running fits (.inr (by
      show 0 + 1 + 1 ≤ _
      exact room)) clear
    refine ⟨_, _, run, rfl, ?_, ?_, ?_, ?_, ?_, opened.upResponses.trans (List.append_assoc _ _ _).symm,
      opened.others⟩
    · rw [opened.ring]
      rfl
    · rw [opened.ring]
      rfl
    · rw [opened.ring]
      rfl
    · rw [opened.ring]
      refine (take_openedBy ?_).trans rfl
      exact message
    · rw [opened.issueQueue, opened.ring]
      rfl
  · rw [isCurrent.1 open', afterOutcome_completes (by rw [acts.ring]; exact closes) (by rw [acts.ring]; exact last),
      commitCompletion_aborting (by rw [acts.ring]; exact request) (by rw [acts.ring]; exact aborting)] at run
    have aborted := ((acts.recordPut nofun .aborting w.requester w.offset).respond w.requester w.tag .error
      []).modPut closeSlot
    have done := judgePutQueue_none (by rw [aborted.ring]; exact none) (by rw [aborted.ring]; rfl) aborted
    exact ⟨_, run, settledAt_of_acts free done⟩

end Sys2Proof.Laws

/-! PROOFS. The commit completion of the last write (R41, R45, R62, R63, R77, R93, R95, R97, R125, R131); with O31. -/

namespace Sys2Proof.Laws

open Sys2Proof.Machine

/-! ## What the Ring Table's test leaves -/

section

variable {v : State} {r : RingId}

theorem put_settle (clear : (v.ring r).put.head = .clear) : ((v.settle r).ring r).put = (v.ring r).put := by
  rcases ring_settle v r with same | idle
  · rw [same]
  · rw [idle]
    unfold Ring.atIdle
    rw [← clear]

theorem tags_settle (v : State) (r : RingId) : (v.settle r).tags = v.tags := by
  cases meets : v.idleCondition r with
  | false => rw [settle_of_not meets]
  | true => exact ((Acts.refl .loud r v).expose.settle_enters meets).tags

theorem stamps_settle (v : State) (r : RingId) : (v.settle r).stamps = v.stamps := by
  cases meets : v.idleCondition r with
  | false => rw [settle_of_not meets]
  | true => exact (((Acts.refl .loud r v).expose.settle_enters meets).quiet nofun).1

/-- A ring that serves enters IDLE with nothing published only. -/
theorem ring_settle_serving (serving : (v.ring r).state ≠ .aborting) :
    v.settle r = v ∨ ((v.settle r).ring r = (v.ring r).atIdle ∧ (v.ring r).occ = 0) := by
  cases meets : v.idleCondition r with
  | false => exact .inl (settle_of_not meets)
  | true =>
    rcases (idleCondition_iff_enters v r).1 meets with ⟨-, aborting | ⟨-, -, empty, -⟩⟩
    · exact absurd aborting serving
    · exact .inr ⟨by rw [settle_of meets]; exact ring_enterIdle_self v r, empty⟩

theorem occ_settle (serving : (v.ring r).state ≠ .aborting) : ((v.settle r).ring r).occ = (v.ring r).occ := by
  rcases ring_settle_serving serving with same | ⟨idle, empty⟩
  · rw [same]
  · rw [idle, empty]
    rfl

theorem t_settle (v : State) (r : RingId) : ((v.settle r).ring r).t = (v.ring r).t := by
  rcases ring_settle v r with same | idle
  · rw [same]
  · rw [idle]
    rfl

end

/-! ## The last outcome of a COMMITTING slot (R62, R64) -/

/-- The ring whose last write has been answered. -/
def lastAnswered (x : Ring) (q : Requester) (u : UTag) : Ring :=
  { x with put := { x.put with
    outstanding := 0
    writes := x.put.writes.filter (fun e => !(e.requester == q && e.tag == u)) } }

/-- The command that brings the last outcome: the commit completion follows. -/
theorem exec_lastOutcome {s : State} {r : RingId} {i : DTag} {q : Requester} {u : UTag} {timeout : Timer}
    {e : WriteEntry} {w : UReq} (up : s.resetN = true)
    (busy : s.tags[i] = .busy (.put r) q u (s.ring r).put.generation timeout)
    (found : (s.ring r).put.writes.find? (fun e => e.requester == q && e.tag == u) = some e)
    (closes : (s.ring r).put.phase = .committing) (last : (s.ring r).put.outstanding = 1)
    (request : (s.ring r).put.uRequest = some w) (serving : (s.ring r).state ≠ .aborting) (data : List Word) :
    ∃ v, exec (.downstreamResponse i .ok data) s =
        .next ((((v.verdicts r (some w)).modPut r closeSlot).judgePutQueue r).settle r) ∧
      Acts .loud r (s.setTag i .free) v (lastAnswered (s.ring r) q u)
        (if w.requester = q ∧ w.tag = u then [] else [⟨q, u, .ok, []⟩]) [] := by
  obtain ⟨en, v, -, set, run, acts⟩ := exec_putOutcome (c := .downstreamResponse i .ok data) (status := .ok)
    (tags := s.tags.set i .free) up busy (.inl ⟨data, rfl, rfl⟩) found
  have entry : s.setTag i en = s.setTag i .free := congrArg (fun tags => { s with tags := tags }) set
  have opened : (s.ring r).put.slotOpen = true := by simp [PutEngine.slotOpen, closes]
  have current : (s.ring r).put.ofOpenSlot (s.ring r).put.generation = true := by
    simp [PutEngine.ofOpenSlot, opened]
  have counted : (s.ring r).outcomeCounted q u (s.ring r).put.generation e .ok s.timebase =
      lastAnswered (s.ring r) q u := by
    unfold Ring.outcomeCounted lastAnswered
    rw [current, last]
    simp
  have answer : (s.ring r).outcomeAnswer q u .ok =
      if w.requester = q ∧ w.tag = u then [] else [⟨q, u, .ok, []⟩] := by
    unfold Ring.outcomeAnswer
    rw [opened, request]
    simp
  rw [entry, counted, answer] at acts
  refine ⟨v, ?_, acts⟩
  rw [run, (isCurrent_iff _ _).2 ⟨opened, rfl⟩, afterOutcome_completes (by rw [acts.ring]; exact closes)
    (by rw [acts.ring]; rfl), commitCompletion_serving (by rw [acts.ring]; exact request)
    (by rw [acts.ring]; exact serving)]

/-! ## The publish, by what its slip and its ageing leave (R41, R125, R131) -/

section

variable {v : State} {r : RingId} {gap : Bool}

/-- The ring whose open slot has joined those published. -/
def slotEntered (x : Ring) : Ring := { x with occ := x.occ + 1 }

/-- What the slip and the ageing of a publish make of the ring. -/
def AgedTo (v : State) (r : RingId) (gap : Bool) (z : Ring) : Prop :=
  Acts .loud r (v.enterSet r gap)
    (((v.enterSet r gap).dropSlip r).publishAge r
      (decide ((v.ring r).occ = 0) || decide (((v.enterSet r gap).ring r).slipCount ≠ 0))) z [] []

theorem acts_slip (v : State) (r : RingId) (gap : Bool) : Acts .loud r (v.enterSet r gap)
    ((v.enterSet r gap).dropSlip r) (slipped (slotEntered (v.ring r))) [] [] :=
  acts_dropSlip ((Acts.refl .loud r (v.enterSet r gap)).cast ((Acts.refl .loud r v).enterSet gap).ring rfl rfl) nofun

/-- The ring has changed heads (R131). -/
def headChanges (x : Ring) : Bool := decide (x.occ = 0) || decide ((slotEntered x).slipCount ≠ 0)

theorem agedTo_iff {z : Ring} : AgedTo v r gap z ↔ Acts .loud r (v.enterSet r gap)
    (((v.enterSet r gap).dropSlip r).publishAge r (headChanges (v.ring r))) z [] [] := by
  unfold AgedTo headChanges slotEntered
  rw [((Acts.refl .loud r v).enterSet gap).ring]

/-- The head stays, or none ages on this ring. -/
theorem agedTo_none (never : (v.ring r).agesOut = false ∨ headChanges (v.ring r) = false) :
    AgedTo v r gap { slipped (slotEntered (v.ring r)) with
      ageTimer := if headChanges (v.ring r) then none else (v.ring r).ageTimer } := by
  rw [agedTo_iff]
  have same : (slipped (slotEntered (v.ring r))).ageTimer = (v.ring r).ageTimer := by
    rw [slipped_eq]
    rfl
  rcases never with off | stays
  · have ages : (slipped (slotEntered (v.ring r))).agesOut = false := by
      rw [slipped_eq]
      exact off
    exact (acts_publishAge_none (acts_slip v r gap) ages _).cast (by rw [same]) rfl rfl
  · rw [stays]
    exact (acts_slip v r gap).cast (by rw [if_neg Bool.false_ne_true, ← same]) rfl rfl

/-- A new head on a ring that ages: the newest slot stays, and the first head that is not past its limit keeps the
timer. -/
theorem agedTo_ages {y : Ring} (wf : SparseWf Stamp.zero v.stamps) (is : y = slipped (slotEntered (v.ring r)))
    (ages : (v.ring r).agesOut = true) (changes : headChanges (v.ring r) = true)
    (inside : y.t % y.config.slots = y.t) (some : 1 ≤ y.occ)
    (newest : (y.t + (y.occ - 1)) % y.config.slots = ((v.ring r).t + (v.ring r).occ) % (v.ring r).config.slots)
    (held : (v.ring r).blocks[((v.ring r).t + (v.ring r).occ) % (v.ring r).config.slots / 64]? ≠ none) :
    ∃ n < y.occ,
      (∀ j < n, y.config.ageLimit.toNat ≤
        (v.timebase - ((v.enterSet r gap).stampAt r ((y.t + j) % y.config.slots)).commitTime).toNat) ∧
      (v.timebase - ((v.enterSet r gap).stampAt r ((y.t + n) % y.config.slots)).commitTime).toNat <
        y.config.ageLimit.toNat ∧
      AgedTo v r gap (agedOut y n
        (.some ⟨((v.enterSet r gap).stampAt r ((y.t + n) % y.config.slots)).commitTime,
          y.config.ageLimit.toNat⟩)) := by
  have slips := acts_slip v r gap
  rw [← is] at slips
  have shape := slipped_eq (slotEntered (v.ring r))
  rw [← is] at shape
  have config : y.config = (v.ring r).config := (congrArg Ring.config shape).trans rfl
  have blocks : y.blocks = ((v.enterSet r gap).ring r).blocks := by
    rw [congrArg Ring.blocks shape, ((Acts.refl .loud r v).enterSet gap).ring]
    rfl
  have agesY : y.agesOut = true := by
    unfold Ring.agesOut at ages ⊢
    rw [config]
    exact ages
  have time : (v.enterSet r gap).timebase = v.timebase := by rw [enterSet_rest]
  obtain ⟨n, within, past, young, aged⟩ := acts_armAge (y.occ + 1) slips agesY inside blocks (Nat.lt_succ_self _)
  rw [time] at past young
  have fresh : ((v.enterSet r gap).stampAt r ((y.t + (y.occ - 1)) % y.config.slots)).commitTime = v.timebase := by
    rw [newest, stampAt_enterSet wf rfl held]
    rfl
  have fewer : n < y.occ := by
    refine Nat.lt_of_le_of_ne within fun all => ?_
    have old := past (y.occ - 1) (by omega)
    rw [fresh, BitVec.sub_self] at old
    have limited := ((agesOut_iff y).1 agesY).2
    exact limited (BitVec.eq_of_toNat_eq (Nat.le_zero.1 old))
  refine ⟨n, fewer, past, young fewer, ?_⟩
  rw [if_neg fewer.ne] at aged
  rw [agedTo_iff, changes]
  have fuel : State.armAge (y.occ + 1) ((v.enterSet r gap).dropSlip r) r =
      ((v.enterSet r gap).dropSlip r).rearmAge r := by
    unfold State.rearmAge
    rw [slips.ring]
  rw [fuel] at aged
  exact aged

end

/-! ## The ring behind a publish -/

/-- The ring once its slot has been published, with the slip and the ageing at `z`, and has been closed. -/
def publishClosed (z : Ring) (j : Judgement) (gap : Bool) : Ring :=
  alignPublished { z with events := { z.events with
    counters := z.events.counters.set 0 (advanceCounter z.events.counters[0] 1) } } j gap

/-- The event that publishes leaves ring `r` closed, or in IDLE where nothing is published any more. -/
def PublishEnds (v t : State) (r : RingId) (gap : Bool) (j : Judgement) : Prop :=
  ∀ z, AgedTo v r gap z → t.ring r = publishClosed z j gap ∨
    (t.ring r = (publishClosed z j gap).atIdle ∧ z.occ = 0)

section

variable {s v t : State} {r : RingId} {x z : Ring} {gap : Bool} {j : Judgement} {w : UReq} {answers : List UpResponse}

/-- A slip and an ageing leave the rest of the ring. -/
theorem agedTo_keeps (aged : AgedTo v r gap z) : ∃ t occ retained timer n m,
    z = departed (v.ring r) t occ retained timer n m := by
  obtain ⟨t, occ, retained, timer, n, m, any⟩ := aged_any v r gap
  exact ⟨t, occ, retained, timer, n, m, aged.ring.symm.trans any.ring⟩

theorem agedTo_unique {z' : Ring} (aged : AgedTo v r gap z) (aged' : AgedTo v r gap z') : z = z' :=
  aged.ring.symm.trans aged'.ring

/-- The commit completion that publishes, on a ring with nothing held behind the slot and no parked read. -/
theorem acts_commitAged (acts : Acts .loud r s v x answers [])
    (judged : j = x.align.judge x.config s.timebase x.put.marker x.put.sequence)
    (reaches : x.reachesAlign = true) (kept : j.decision ≠ .drop) (isGap : gap = true ↔ j.decision = .publishGap)
    (hold : x.put.hold = []) (unparked : x.take.head.isParked = false) (w : UReq) {u : State}
    (is : u = ((v.verdicts r (some w)).modPut r closeSlot).judgePutQueue r) :
    (∀ z, AgedTo v r gap z →
      Acts .wide r s u (publishClosed z j gap) (answers ++ [⟨w.requester, w.tag, .ok, []⟩]) []) ∧
      PublishSampled s u r (slipped (slotEntered x)).occ ∧ u.stamps = (v.enterSet r gap).stamps := by
  subst is
  obtain rfl : v.ring r = x := acts.ring
  have commits : ∀ z, AgedTo v r gap z →
      Acts .wide r s (((v.verdicts r (some w)).modPut r closeSlot).judgePutQueue r) (publishClosed z j gap)
        (answers ++ [⟨w.requester, w.tag, .ok, []⟩]) [] ∧
      PublishSampled s (((v.verdicts r (some w)).modPut r closeSlot).judgePutQueue r) r
        (slipped (slotEntered (v.ring r))).occ ∧
      (((v.verdicts r (some w)).modPut r closeSlot).judgePutQueue r).stamps = (v.enterSet r gap).stamps := by
    intro z aged
    obtain ⟨_, _, _, _, _, _, rfl⟩ := agedTo_keeps aged
    obtain ⟨published, sampled, stamps, -⟩ := acts_publish_idle aged (.inl unparked)
    obtain ⟨whole, last⟩ := acts_commitPublished acts judged reaches kept isGap published w
    have queue := judgePutQueue_none (by rw [last.ring]; exact hold) (by rw [last.ring]; rfl) last
    obtain ⟨survey, flags⟩ := queue.unseen nofun nofun
    obtain ⟨survey₀, flags₀⟩ := acts.unseen nofun nofun
    exact ⟨judgePutQueue_none (by rw [whole.ring]; exact hold) (by rw [whole.ring]; rfl) whole,
      publishSampled_congr sampled survey₀.symm flags₀.symm acts.timebase.symm survey flags,
      (queue.quiet nofun).1.trans stamps⟩
  obtain ⟨_, _, _, _, _, _, any⟩ := aged_any v r gap
  exact ⟨fun z aged => (commits z aged).1, (commits _ any).2⟩

theorem publishEnds_of_acts {u : State} (commits : ∀ z, AgedTo v r gap z →
      Acts .wide r s u (publishClosed z j gap) answers []) (serving : (v.ring r).state ≠ .aborting) :
    PublishEnds v (u.settle r) r gap j := by
  intro z aged
  have ring := (commits z aged).ring
  obtain ⟨_, _, _, _, _, _, rfl⟩ := agedTo_keeps aged
  rcases ring_settle_serving (v := u) (r := r) (by rw [ring]; exact serving) with same | ⟨idle, empty⟩
  · exact .inl (by rw [same, ring])
  · rw [ring] at idle empty
    exact .inr ⟨idle, empty⟩

/-! ### What every publish leaves -/

section

variable (ends : PublishEnds v t r gap j)

include ends

theorem PublishEnds.put (aged : AgedTo v r gap z) : (t.ring r).put = closeSlot (v.ring r).put := by
  obtain ⟨_, _, _, _, _, _, rfl⟩ := agedTo_keeps aged
  rcases ends _ aged with same | ⟨idle, -⟩
  · rw [same]; rfl
  · rw [idle]; rfl

theorem PublishEnds.occ (aged : AgedTo v r gap z) : (t.ring r).occ = z.occ := by
  rcases ends z aged with same | ⟨idle, empty⟩
  · rw [same]; rfl
  · rw [idle, empty]; rfl

theorem PublishEnds.position (aged : AgedTo v r gap z) : (t.ring r).t = z.t := by
  rcases ends z aged with same | ⟨idle, -⟩
  · rw [same]; rfl
  · rw [idle]; rfl

theorem PublishEnds.counters (aged : AgedTo v r gap z) :
    (t.ring r).events.counters = (publishClosed z j gap).events.counters := by
  rcases ends z aged with same | ⟨idle, -⟩
  · rw [same]
  · rw [idle]; rfl

theorem PublishEnds.flags (aged : AgedTo v r gap z) {m : BitVec 18}
    (set : (publishClosed z j gap).events.flags &&& m = m) : (t.ring r).events.flags &&& m = m := by
  rcases ends z aged with same | ⟨idle, -⟩
  · rw [same, set]
  · rw [idle]
    show ((publishClosed z j gap).events.flags ||| 0x20000#18) &&& m = m
    rw [BitVec.or_comm]
    exact or_and_of_and set

theorem PublishEnds.ring (aged : AgedTo v r gap z) (published : z.occ ≠ 0) : t.ring r = publishClosed z j gap :=
  (ends z aged).resolve_right fun idle => published idle.2

end

end

/-! ### The slip and the ageing, by kind and by occ -/

section

variable {v : State} {r : RingId} {gap : Bool}

theorem slipped_above {x : Ring} (paced : x.config.kind = .paced) (above : x.config.highMark.toNat < x.occ)
    {n : Nat} (is : n = x.occ - x.config.centre.toNat) (some : n ≠ 0) :
    slipped x = { x.departN n with events := x.events.report 0x200#18 8 n } := by
  have count : x.slipCount = n := (slipCount_above paced above).trans is.symm
  unfold slipped
  rw [count, if_neg some]

theorem slipped_entered {x : Ring} (paced : x.config.kind = .paced)
    (above : x.config.highMark.toNat < x.occ + 1) (centre : x.config.centre.toNat ≤ x.occ) {d : Nat}
    (dropped : d = x.occ + 1 - x.config.centre.toNat) :
    slipped (slotEntered x) = { x with
      t := (x.t + d) % x.config.slots
      occ := x.config.centre.toNat
      retained := true
      events := x.events.report 0x200#18 8 d } := by
  have some : d ≠ 0 := by omega
  have left : x.occ + 1 - d = x.config.centre.toNat := by omega
  rw [slipped_above (x := slotEntered x) paced above dropped some]
  unfold Ring.departN slotEntered
  simp [left, paced, Nat.pos_of_ne_zero some]

/-- The head stays: slots were published before, and no slip is called for. -/
theorem agedTo_stays (below : (v.ring r).occ + 1 ≤ (v.ring r).config.highMark.toNat) (some : (v.ring r).occ ≠ 0) :
    AgedTo v r gap (slotEntered (v.ring r)) := by
  have slips : slipped (slotEntered (v.ring r)) = slotEntered (v.ring r) := slipped_below below
  have none : (slotEntered (v.ring r)).slipCount = 0 := if_neg fun above => absurd above.2 (Nat.not_lt.2 below)
  have stays : headChanges (v.ring r) = false := by
    unfold headChanges
    rw [none]
    simp [some]
  have aged := agedTo_none (gap := gap) (.inr stays)
  rw [slips, stays, if_neg Bool.false_ne_true] at aged
  exact aged

/-- The slot published on an empty ring that ages is its head. -/
theorem agedTo_first (wf : SparseWf Stamp.zero v.stamps) (ages : (v.ring r).agesOut = true)
    (below : (v.ring r).occ + 1 ≤ (v.ring r).config.highMark.toNat) (empty : (v.ring r).occ = 0)
    (inside : (v.ring r).t < (v.ring r).config.slots)
    (held : (v.ring r).blocks[((v.ring r).t + (v.ring r).occ) % (v.ring r).config.slots / 64]? ≠ none) :
    AgedTo v r gap { slotEntered (v.ring r) with
      ageTimer := some ⟨v.timebase, (v.ring r).config.ageLimit.toNat⟩ } := by
  have slips : slipped (slotEntered (v.ring r)) = slotEntered (v.ring r) := slipped_below below
  have changes : headChanges (v.ring r) = true := by simp [headChanges, empty]
  have around : (slotEntered (v.ring r)).t % (slotEntered (v.ring r)).config.slots = (slotEntered (v.ring r)).t :=
    Nat.mod_eq_of_lt inside
  have one : (slotEntered (v.ring r)).occ = 1 := congrArg (· + 1) empty
  obtain ⟨n, fewer, -, -, aged⟩ := agedTo_ages (gap := gap) wf slips.symm ages changes around one.ge
    (by rw [one, empty]; rfl) held
  have zero : n = 0 := by omega
  subst zero
  rw [agedOut_zero around] at aged
  have newest := stampAt_enterSet (gap := gap) wf rfl held
  rw [empty] at newest
  rw [show ((slotEntered (v.ring r)).t + 0) % (slotEntered (v.ring r)).config.slots =
    ((v.ring r).t + 0) % (v.ring r).config.slots from rfl, newest] at aged
  exact aged

/-- A slip on a ring that ages: the head that it comes to, and further ones past their limit. -/
theorem agedTo_slip (wf : SparseWf Stamp.zero v.stamps) (paced : (v.ring r).config.kind = .paced)
    (limited : (v.ring r).config.ageLimit ≠ 0) (above : (v.ring r).config.highMark.toNat < (v.ring r).occ + 1)
    (least : 1 ≤ (v.ring r).config.centre.toNat) (centre : (v.ring r).config.centre.toNat ≤ (v.ring r).occ)
    (held : (v.ring r).blocks[((v.ring r).t + (v.ring r).occ) % (v.ring r).config.slots / 64]? ≠ none) {d : Nat}
    (dropped : d = (v.ring r).occ + 1 - (v.ring r).config.centre.toNat) :
    ∃ n < (v.ring r).config.centre.toNat,
      (∀ j < n, (v.ring r).config.ageLimit.toNat ≤ (v.timebase - ((v.enterSet r gap).stampAt r
        (((v.ring r).t + d + j) % (v.ring r).config.slots)).commitTime).toNat) ∧
      (v.timebase - ((v.enterSet r gap).stampAt r
        (((v.ring r).t + d + n) % (v.ring r).config.slots)).commitTime).toNat <
          (v.ring r).config.ageLimit.toNat ∧
      AgedTo v r gap { v.ring r with
        t := ((v.ring r).t + d + n) % (v.ring r).config.slots
        occ := (v.ring r).config.centre.toNat - n
        retained := true
        ageTimer := some ⟨((v.enterSet r gap).stampAt r
          (((v.ring r).t + d + n) % (v.ring r).config.slots)).commitTime, (v.ring r).config.ageLimit.toNat⟩
        events := reportTimes ((v.ring r).events.report 0x200#18 8 d) 0x800#18 10 n } := by
  have slips := slipped_entered paced above centre dropped
  have changes : headChanges (v.ring r) = true := by
    have count : (slotEntered (v.ring r)).slipCount = d :=
      (slipCount_above (x := slotEntered (v.ring r)) paced above).trans dropped.symm
    unfold headChanges
    rw [count]
    simp
    omega
  obtain ⟨n, fewer, past, young, aged⟩ := agedTo_ages (gap := gap) wf slips.symm ((agesOut_iff _).2 ⟨paced, limited⟩)
    changes (Nat.mod_mod _ _) least (by
      show (((v.ring r).t + d) % (v.ring r).config.slots + ((v.ring r).config.centre.toNat - 1)) %
        (v.ring r).config.slots = _
      rw [Nat.mod_add_mod]
      congr 1
      omega) held
  have shift : ∀ j, (((v.ring r).t + d) % (v.ring r).config.slots + j) % (v.ring r).config.slots =
      ((v.ring r).t + d + j) % (v.ring r).config.slots := fun j => Nat.mod_add_mod _ _ _
  refine ⟨n, fewer, fun j below => ?_, ?_, ?_⟩
  · rw [← shift]
    exact past j below
  · rw [← shift]
    exact young
  · rw [← shift]
    unfold agedOut at aged
    simpa using aged

/-- A slip on a ring that does not age. -/
theorem agedTo_slip_ageless (paced : (v.ring r).config.kind = .paced) (unlimited : (v.ring r).config.ageLimit = 0)
    (above : (v.ring r).config.highMark.toNat < (v.ring r).occ + 1)
    (centre : (v.ring r).config.centre.toNat ≤ (v.ring r).occ) {d : Nat}
    (dropped : d = (v.ring r).occ + 1 - (v.ring r).config.centre.toNat) :
    ∃ timer, AgedTo v r gap { v.ring r with
      t := ((v.ring r).t + d) % (v.ring r).config.slots
      occ := (v.ring r).config.centre.toNat
      retained := true
      ageTimer := timer
      events := (v.ring r).events.report 0x200#18 8 d } := by
  have ages : (v.ring r).agesOut = false := Bool.eq_false_iff.2 fun on => ((agesOut_iff _).1 on).2 unlimited
  have aged := agedTo_none (gap := gap) (.inl ages)
  rw [slipped_entered paced above centre dropped] at aged
  exact ⟨_, aged⟩

/-- A publish below the high mark on a ring that does not age. -/
theorem agedTo_ageless (unlimited : (v.ring r).config.ageLimit = 0)
    (below : (v.ring r).occ + 1 ≤ (v.ring r).config.highMark.toNat) :
    ∃ timer, AgedTo v r gap { slotEntered (v.ring r) with ageTimer := timer } := by
  have ages : (v.ring r).agesOut = false := Bool.eq_false_iff.2 fun on => ((agesOut_iff _).1 on).2 unlimited
  have aged := agedTo_none (gap := gap) (.inl ages)
  rw [slipped_below (x := slotEntered (v.ring r)) below] at aged
  exact ⟨_, aged⟩

end

/-! ## The obligation -/

theorem flags_publishClosed (z : Ring) (j : Judgement) (gap : Bool) :
    (publishClosed z j gap).events.flags = z.events.flags ||| flagsIf gap 0x8#18 ||| alignBits j.flag := by
  unfold publishClosed alignPublished
  cases gap
  · rw [or_flagsIf_false]
    rfl
  · rfl

theorem published_publishClosed (z : Ring) (j : Judgement) (gap : Bool) :
    (publishClosed z j gap).events.counters[(0 : Fin 15)] = advanceCounter z.events.counters[(0 : Fin 15)] 1 :=
  (counter_alignPublished _ j gap).trans (Vector.getElem_set_self _)

theorem gaps_publishClosed (z : Ring) (j : Judgement) (gap : Bool) :
    (publishClosed z j gap).events.counters[(3 : Fin 15)] =
      advanceCounter z.events.counters[(3 : Fin 15)] (if gap then 1 else 0) := by
  have before : (z.events.counters.set 0 (advanceCounter z.events.counters[0] 1))[(3 : Fin 15)] =
      z.events.counters[(3 : Fin 15)] := Vector.getElem_set_ne (by decide) (by decide) (by decide)
  cases gap
  · exact before.trans (advanceCounter_zero _).symm
  · exact (Vector.getElem_set_self _).trans (congrArg (advanceCounter · 1) before)

theorem counter_publishClosed (z : Ring) (j : Judgement) (gap : Bool) {c : Fin 15} (first : (0 : Fin 15) ≠ c)
    (third : (3 : Fin 15) ≠ c) : (publishClosed z j gap).events.counters[c] = z.events.counters[c] := by
  have before : (z.events.counters.set 0 (advanceCounter z.events.counters[0] 1))[c] = z.events.counters[c] :=
    Vector.getElem_set_ne (by decide) c.isLt (Fin.val_ne_of_ne first)
  cases gap
  · exact before
  · exact (Vector.getElem_set_ne (by decide) c.isLt (Fin.val_ne_of_ne third)).trans before

theorem counter_departed (x : Ring) (t occ : Nat) (retained : Bool) (timer : Option Timer) (n m : Nat) {c : Fin 15}
    (slip : (8 : Fin 15) ≠ c) (age : (10 : Fin 15) ≠ c) :
    (departed x t occ retained timer n m).events.counters[c] = x.events.counters[c] :=
  (counter_reportTimes _ _ age m).trans (counter_reportTimes _ _ slip n)

/-- The flags of a slip and of ageing aside, a departure leaves the flags. -/
theorem flags_departed (x : Ring) (t occ : Nat) (retained : Bool) (timer : Option Timer) (n m : Nat)
    (g a : BitVec 18) : (departed x t occ retained timer n m).events.flags ||| g ||| a ||| 0xA00#18 =
      x.events.flags ||| 0xA00#18 ||| g ||| a := by
  have slip : ∀ b : Bool, flagsIf b 0x200#18 ||| 0xA00#18 = 0xA00#18 := by decide
  have age : ∀ b : Bool, flagsIf b 0x800#18 ||| 0xA00#18 = 0xA00#18 := by decide
  show x.events.flags ||| flagsIf (decide (n ≠ 0)) 0x200#18 ||| flagsIf (decide (m ≠ 0)) 0x800#18 ||| g ||| a |||
    0xA00#18 = _
  calc
    _ = x.events.flags ||| (flagsIf (decide (n ≠ 0)) 0x200#18 |||
        (flagsIf (decide (m ≠ 0)) 0x800#18 ||| 0xA00#18)) ||| g ||| a := by ac_rfl
    _ = _ := by rw [age, slip]

/-- The slots published after a publish and its slip (R125). -/
theorem occ_slipped (x : Ring) : (slipped (slotEntered x)).occ =
    if x.config.kind = .paced ∧ x.config.highMark.toNat < x.occ + 1 then min (x.occ + 1) x.config.centre.toNat
    else x.occ + 1 := by
  unfold slipped
  split
  next none =>
    split
    next above =>
      have count := none.symm.trans (slipCount_above (x := slotEntered x) above.1 above.2)
      have count : 0 = x.occ + 1 - x.config.centre.toNat := count
      show x.occ + 1 = _
      omega
    next => rfl
  next some =>
    split
    next above =>
      show x.occ + 1 - (slotEntered x).slipCount = _
      rw [slipCount_above (x := slotEntered x) above.1 above.2]
      show x.occ + 1 - (x.occ + 1 - x.config.centre.toNat) = _
      omega
    next below => exact absurd (if_neg below) some

/-- What a commit completion leaves that has not published, once the Ring Table has made its test. -/
theorem commit_settles {s u : State} {r : RingId} {i : DTag} {y : Ring} {answers : List UpResponse} {k : Scope}
    (done : Acts k r (s.setTag i .free) u y answers []) (clear : y.put.head = .clear) (serving : y.state ≠ .aborting) :
    (u.settle r).tags = s.tags.set i .free ∧ (u.settle r).upResponses = s.upResponses ++ answers ∧
      (u.settle r).stamps = u.stamps ∧ ((u.settle r).ring r).put = y.put ∧ ((u.settle r).ring r).occ = y.occ ∧
      ((u.settle r).ring r).events.counters = y.events.counters := by
  have ring := done.ring
  refine ⟨(tags_settle u r).trans done.tags, (upResponses_settle u r).trans done.upResponses, stamps_settle u r,
    ?_, ?_, ?_⟩
  · rw [put_settle (by rw [ring]; exact clear), ring]
  · rw [occ_settle (by rw [ring]; exact serving), ring]
  · rw [counters_settle, ring]

/-- Settles O31: the verdicts come in their order; the publish is given by its slip and its ageing. -/
theorem commitVerdictsInOrder : Obligations.CommitVerdictsInOrder := by
  rintro s r i q u timeout e w position j gap data ⟨wf, -⟩ up busy found closes last request hold unparked serving
    rfl judged
  have active : (s.ring r).state ≠ .aborting := by rcases serving with state | state <;> rw [state] <;> nofun
  have awake : (s.ring r).state ≠ .idle := by rcases serving with state | state <;> rw [state] <;> nofun
  obtain ⟨v, run, acts⟩ := exec_lastOutcome up busy found closes last request active data
  rw [run]
  generalize (if w.requester = q ∧ w.tag = u then [] else [⟨q, u, .ok, []⟩] : List UpResponse) = answers at acts ⊢
  by_cases publishes : (lastAnswered (s.ring r) q u).reachesAlign = true ∧ j.decision ≠ .drop
  · obtain ⟨reaches, kept⟩ := publishes
    obtain ⟨sound, checked⟩ := (reachesAlign_iff _).1 reaches
    obtain ⟨commits, sampled, stamps⟩ := acts_commitAged acts judged reaches kept
      (gap := decide (j.decision = .publishGap)) decide_eq_true_iff hold unparked w rfl
    generalize ((v.verdicts r (some w)).modPut r closeSlot).judgePutQueue r = z at commits sampled stamps ⊢
    have ring := acts.ring
    have ends := publishEnds_of_acts commits (by rw [ring]; exact active)
    obtain ⟨t, occ, retained, armed, n, m, any⟩ : ∃ t occ retained armed n m, AgedTo v r
      (decide (j.decision = .publishGap)) (departed (v.ring r) t occ retained armed n m) := aged_any v r _
    have put := ends.put any
    have wfv : SparseWf Stamp.zero v.stamps := by
      rw [(acts.quiet nofun).1]
      exact wf
    have done := commits _ any
    obtain ⟨tags, answered, stamps', -, -, -⟩ := commit_settles done rfl (by
      show (v.ring r).state ≠ _
      rw [ring]
      exact active)
    rw [ring] at any put
    refine ⟨_, rfl, tags, by rw [put]; rfl, .ok, answered.trans (List.append_assoc _ _ _).symm,
      fun fault => absurd (sound.symm.trans fault) nofun, fun _ verify mismatch => absurd ⟨verify, mismatch⟩ checked,
      fun _ _ => ⟨rfl, by rw [put]; rfl, ends.flags any ?_, fun drops => absurd drops kept, fun _ isGap => ?_⟩⟩
    · rw [flags_publishClosed]
      exact or_and_of_and BitVec.and_self
    · obtain rfl : decide (j.decision = .publishGap) = gap := by
        rw [Bool.eq_iff_iff, decide_eq_true_iff]
        exact isGap.symm
      refine ⟨?_, ?_, fun gaps => ends.flags any ?_, fun some => ?_, fun b block n => ?_, fun sampling commit source some => ?_,
        fun message => ?_, fun paced limited below => ⟨fun some => ?_, fun empty inside held => ?_⟩,
        fun paced limited above least centre inside held dropped head is heads => ?_,
        fun paced unlimited => ⟨fun below => ?_, fun above least centre => ?_⟩⟩
      · rw [ends.counters any]
        exact (published_publishClosed _ j _).trans (congrArg (advanceCounter · 1)
          (counter_departed _ t occ retained armed n m (by decide) (by decide)))
      · rw [ends.counters any]
        exact (gaps_publishClosed _ j _).trans (congrArg (advanceCounter · _)
          (counter_departed _ t occ retained armed n m (by decide) (by decide)))
      · rw [flags_publishClosed, gaps, BitVec.or_comm]
        exact or_and_of_and (or_and_of_and BitVec.and_self)
      · rw [ends.occ any] at some
        rw [ends.ring any some, flags_publishClosed]
        exact ⟨rfl, flags_departed _ t occ retained armed n m _ _⟩
      · exact stamps_published acts (stamps'.trans stamps) wf rfl block n
      · rw [ends.occ any] at some
        rw [settle_of_not (done.idleCondition_of_occ (by show (v.ring r).state ≠ _; rw [ring]; exact active) some)]
        have sampled := sampled.1 ⟨sampling, commit, source⟩
        rw [occ_slipped] at sampled
        exact sampled
      · have aged := aged_message (gap := decide (j.decision = .publishGap)) (s := v) (r := r) (by rw [ring]; exact message)
        rw [ends.ring aged (Nat.succ_ne_zero _), flags_publishClosed, ring]
        exact ⟨rfl, rfl, rfl, rfl⟩
      · have aged := agedTo_stays (gap := decide (j.decision = .publishGap)) (v := v) (r := r) (by rw [ring]; exact below)
          (by rw [ring]; exact some)
        rw [ends.ring aged (Nat.succ_ne_zero _), ring]
        exact ⟨rfl, rfl, rfl⟩
      · have aged := agedTo_first (gap := decide (j.decision = .publishGap)) (v := v) (r := r) wfv
          ((agesOut_iff _).2 (by rw [ring]; exact ⟨paced, limited⟩)) (by rw [ring]; exact below)
          (by rw [ring]; exact empty) (by rw [ring]; exact inside) (by rw [ring]; exact held)
        rw [ends.ring aged (Nat.succ_ne_zero _), ring, acts.timebase]
        exact ⟨congrArg (· + 1) empty, rfl, rfl⟩
      · obtain ⟨k, fewer, past, young, aged⟩ := agedTo_slip (gap := decide (j.decision = .publishGap)) (v := v) (r := r)
          wfv (by rw [ring]; exact paced) (by rw [ring]; exact limited) (by rw [ring]; exact above)
          (by rw [ring]; exact least) (by rw [ring]; exact centre) (by rw [ring]; exact held)
          (d := dropped) (by rw [ring]; exact is)
        rw [ring] at fewer past young aged
        rw [acts.timebase] at past young
        have left : (s.ring r).config.centre.toNat - k ≠ 0 := Nat.sub_ne_zero_of_lt fewer
        have final := ends.ring aged left
        have entries : ∀ p, (v.enterSet r (decide (j.decision = .publishGap))).stampAt r p = (z.settle r).stampAt r p :=
          fun p => stampAt_congr (by rw [final, ((Acts.refl .loud r v).enterSet _).ring, ring]; rfl)
            (stamps'.trans stamps).symm p
        rw [final]
        refine ⟨rfl, ?_, ?_, k, fewer, rfl, rfl, fun some => ?_, ?_, fun j below => ?_, ?_, ?_⟩
        · rw [flags_publishClosed, BitVec.or_assoc, BitVec.or_comm]
          refine or_and_of_and ?_
          show ((s.ring r).events.flags ||| 0x200#18 ||| flagsIf (decide (k ≠ 0)) 0x800#18) &&& 0x200#18 = 0x200#18
          rw [BitVec.or_comm]
          exact or_and_of_and (or_and_of_and BitVec.and_self)
        · exact (counter_publishClosed _ j _ (c := 8) (by decide) (by decide)).trans
            ((counter_reportTimes _ _ (by decide) k).trans (Vector.getElem_set_self _))
        · rw [flags_publishClosed, BitVec.or_assoc, BitVec.or_comm]
          refine or_and_of_and ?_
          show ((s.ring r).events.flags ||| 0x200#18 ||| flagsIf (decide (k ≠ 0)) 0x800#18) &&& 0x800#18 = 0x800#18
          rw [decide_eq_true some]
          exact or_and_of_and BitVec.and_self
        · refine (counter_publishClosed _ j _ (c := 10) (by decide) (by decide)).trans
            ((Vector.getElem_set_self _).trans (congrArg (advanceCounter · k) ?_))
          exact counter_report _ _ (by decide) _
        · rw [heads, ← entries]
          exact past j below
        · rw [heads, ← entries]
          exact young
        · rw [heads, ← entries]
          rfl
      · obtain ⟨timer, aged⟩ := agedTo_ageless (gap := decide (j.decision = .publishGap)) (v := v) (r := r)
          (by rw [ring]; exact unlimited) (by rw [ring]; exact below)
        rw [ends.occ aged, ends.position aged, ring]
        exact ⟨rfl, rfl⟩
      · obtain ⟨timer, aged⟩ := agedTo_slip_ageless (gap := decide (j.decision = .publishGap)) (v := v) (r := r)
          (by rw [ring]; exact paced) (by rw [ring]; exact unlimited) (by rw [ring]; exact above)
          (by rw [ring]; exact centre) rfl
        have final := ends.ring aged (by rw [ring]; exact Nat.ne_of_gt least)
        rw [final, ring]
        refine ⟨rfl, rfl, rfl, ?_, ?_⟩
        · rw [flags_publishClosed, BitVec.or_assoc, BitVec.or_comm]
          exact or_and_of_and (flags_report _ _ _ _)
        · exact (counter_publishClosed _ j _ (c := 8) (by decide) (by decide)).trans (Vector.getElem_set_self _)
  · have ended := acts_verdicts_unpublished acts nofun w judged publishes
    obtain ⟨-, clear, empty⟩ := verdictTaken_closed (lastAnswered (s.ring r) q u) w j s.timebase
    have done := judgePutQueue_none (by rw [ended.ring]; exact empty.trans hold) (by rw [ended.ring]; exact clear) ended
    generalize ((v.verdicts r (some w)).modPut r closeSlot).judgePutQueue r = z at done ⊢
    refine ⟨_, rfl, ?_⟩
    cases fault : (s.ring r).put.downFault with
    | true =>
      have taken : (lastAnswered (s.ring r) q u).verdictTaken w j s.timebase =
        ((lastAnswered (s.ring r) q u).closed, .error) := if_pos fault
      rw [show (s.setTag i .free).timebase = s.timebase from rfl, taken] at done
      obtain ⟨tags, answered, -, put, occ, counters⟩ := commit_settles done rfl active
      refine ⟨tags, by rw [put]; rfl, .error, answered.trans (List.append_assoc _ _ _).symm,
        fun _ => ⟨rfl, occ, counters, by rw [put]; rfl⟩, nofun, nofun⟩
    | false =>
      by_cases failed : (s.ring r).config.checkMode = .verify ∧ (s.ring r).put.mismatch = true
      · have taken : (lastAnswered (s.ring r) q u).verdictTaken w j s.timebase =
            ((lastAnswered (s.ring r) q u).mismatchDiscarded w s.timebase, .error) :=
          (if_neg (by rw [show (lastAnswered (s.ring r) q u).put.downFault = false from fault]; nofun)).trans
            (if_pos failed)
        rw [show (s.setTag i .free).timebase = s.timebase from rfl, taken] at done
        obtain ⟨tags, answered, -, put, occ, counters⟩ := commit_settles done rfl active
        refine ⟨tags, by rw [put]; rfl, .error, answered.trans (List.append_assoc _ _ _).symm, nofun,
          fun _ _ _ => ⟨rfl, occ, counters, flags_settle ?_, fun stays => ?_, by rw [put]; rfl⟩,
          fun _ passed => ?_⟩
        · rw [done.ring]
          refine or_and_of_and ?_
          rw [BitVec.or_comm]
          exact or_and_of_and (BitVec.and_self)
        · rcases ring_settle_serving (v := z) (r := r) (by rw [done.ring]; exact active) with same | ⟨idle, -⟩
          · rw [same, done.ring]
            exact ⟨rfl, (BitVec.or_assoc _ _ _).symm⟩
          · have state : RingState.idle = (s.ring r).state := by rw [← stays, idle]; rfl
            exact absurd state.symm awake
        · rcases passed with other | matched
          · exact absurd failed.1 other
          · exact nomatch matched.symm.trans failed.2
      · have drops : j.decision = .drop := not_not.1 fun kept =>
          publishes ⟨(reachesAlign_iff _).2 ⟨fault, failed⟩, kept⟩
        have taken : (lastAnswered (s.ring r) q u).verdictTaken w j s.timebase =
            ((lastAnswered (s.ring r) q u).alignDropped j, .ok) :=
          (if_neg (by rw [show (lastAnswered (s.ring r) q u).put.downFault = false from fault]; nofun)).trans
            ((if_neg failed).trans (if_pos drops))
        rw [show (s.setTag i .free).timebase = s.timebase from rfl, taken] at done
        obtain ⟨tags, answered, stamps, put, occ, counters⟩ := commit_settles done rfl active
        refine ⟨tags, by rw [put]; rfl, .ok, answered.trans (List.append_assoc _ _ _).symm, nofun,
          fun _ verify mismatch => absurd ⟨verify, mismatch⟩ failed,
          fun _ _ => ⟨rfl, by rw [put]; rfl, flags_settle ?_, fun _ => ⟨occ, counters,
            stamps.trans (done.quiet nofun).1, fun running => ?_⟩, fun kept => absurd drops kept⟩⟩
        · rw [done.ring]
          exact or_and_of_and BitVec.and_self
        · rw [settle_of_not (idleCondition_of_state (.inr (by rw [done.ring]; exact running))), done.ring]
          exact ⟨rfl, rfl⟩

end Sys2Proof.Laws

/-! PROOFS. Held requests that are served when what held them ends (R41, R58, R67, R82, R107, R111, R115, R117, R118,
R152); with O40. -/

namespace Sys2Proof.Laws

open Sys2Proof.Machine

/-! ## A read parked at a publish (R41, R118) -/

/-- A sample leaves the setup. -/
theorem setup_of_sampledTo {v v' : Survey} {f f' : BitVec 5} {now : Time} {n : Nat} (h : SampledTo v f now n v' f') :
    v'.setup = v.setup := by
  obtain ⟨leaves, within⟩ := h _ _ _ rfl rfl rfl
  by_cases low : v.setup.lowLimit.toNat ≤ n
  · by_cases high : n ≤ v.setup.highLimit.toNat
    · obtain ⟨more, ends, again⟩ := within low high
      rcases Nat.lt_or_ge (v.acc.count + 1) v.setup.samples.toNat with few | all
      · rw [(more few).2]
        split <;> rfl
      · cases repeats : v.setup.repeats with
        | false => rw [(ends all repeats).2]
        | true => rw [(again all repeats).2]
    · rw [(leaves (.inr (Nat.not_le.1 high))).2]
  · rw [(leaves (.inl (Nat.not_le.1 low))).2]

section

variable {k : Scope} {s v : State} {r : RingId} {x : Ring} {a : List UpResponse} {i : List Issue}

/-- The reads of a take start and of a publish sample under different triggers. -/
theorem sampled_parked {w t : State} {e : Stamp} (published : PublishSampled s w r 1)
    (time : w.timebase = s.timebase) (took : TakeSampled w t r 0 e) :
    (s.survey.setup.trigger = .take → TakeSampled s t r 0 e) ∧
      (s.survey.state = .sampling → s.survey.setup.trigger = .commit → s.survey.setup.source = r →
        SampledTo s.survey s.globalFlags s.timebase 1 t.survey t.globalFlags) := by
  refine ⟨fun trigger => ?_, fun sampling trigger source => ?_⟩
  · obtain ⟨survey, flags⟩ := published.2 fun h => nomatch trigger.symm.trans h.2.1
    exact takeSampled_congr took survey.symm flags.symm time.symm rfl rfl
  · have sampled := published.1 ⟨sampling, trigger, source⟩
    have setup := setup_of_sampledTo sampled
    obtain ⟨survey, flags⟩ := took.2 fun h => nomatch (trigger.symm.trans (setup ▸ h.2.1) : Trigger.commit = .take)
    rw [survey, flags]
    exact sampled

/-! ## A read that waits for another (R82, R107) -/

theorem judgeTakeWaiting_flight (flight : (v.ring r).take.readInFlight = true) : v.judgeTakeWaiting r = v := by
  simp [State.judgeTakeWaiting, flight]

theorem judgeTakeWaiting_serves (waits : (v.ring r).take.head = .waiting)
    (landed : (v.ring r).take.readInFlight = false) : v.judgeTakeWaiting r = v.judgeTakeQueue r := by
  simp [State.judgeTakeWaiting, waits, landed]

/-- No read is held: at most the head's hold changes. -/
theorem acts_judgeTakeWaiting_none (acts : Acts k r s v x a i) (none : x.take.hold = []) :
    ∃ head, Acts k r s (v.judgeTakeWaiting r) { x with take := { x.take with head := head } } a i := by
  unfold State.judgeTakeWaiting
  dsimp only
  split
  · obtain ⟨cleared, loop⟩ := acts_judgeTakeQueue acts
    rw [loop, takeLoop_empty (by rw [cleared.ring]; exact none)]
    exact ⟨_, cleared⟩
  · exact ⟨x.take.head, acts⟩

end

theorem openedBy_message {x : Ring} (message : x.config.kind = .message) (p : Requester) (u : UTag) (h : Word)
    (ws : List Word) : x.openedBy p u h ws = { x with put := x.openedPut p u h ws } := by
  unfold Ring.openedBy
  rw [takeInTheWay_message message]
  rfl

section

variable {v : State} {r : RingId} {q : Requester} {u : UTag} {e : ReadEntry} {status : Status}

theorem take_roomAppears (v : State) (r : RingId) : ((v.roomAppears r).ring r).take = (v.ring r).take ∧
    ((v.roomAppears r).ring r).state = (v.ring r).state := by
  unfold State.roomAppears
  dsimp only
  split
  next appears =>
    have message : (v.ring r).config.kind = .message := by simp at appears; exact appears.1.2
    have engines := (enginesOnly_modPut v r (fun p => { p with head := .clear })).trans
      (enginesOnly_putLoop (v.ring r).put.hold.length _)
    exact ⟨engines.2 message, (congrArg Ring.state engines.1).trans rfl⟩
  next => exact ⟨rfl, rfl⟩

theorem number_recordRead (x : TakeRecord) (c : RingConfig) (e : ReadEntry) (words : List Word) :
    (recordRead x c e words).number = x.number := by
  unfold recordRead
  repeat' split
  all_goals rfl

/-- The outcome of a read, up to the read that waits for it. -/
theorem takeOutcome_waits
    (found : (v.ring r).take.reads.find? (fun e => e.requester == q && e.tag == u) = some e) (status : Status)
    (data : List Word) : ∃ z : State, v.takeOutcome r q u status data = z.judgeTakeWaiting r ∧
      (z.ring r).state = (v.ring r).state ∧
      (z.ring r).take.reads = (v.ring r).take.reads.filter (fun e => !(e.requester == q && e.tag == u)) ∧
      (z.ring r).take.hold = (v.ring r).take.hold ∧ (z.ring r).take.head = (v.ring r).take.head ∧
      (z.ring r).take.record.number = (v.ring r).take.record.number := by
  cases status with
  | error =>
    refine ⟨_, takeOutcome_error found data, ?_⟩
    rw [acts_takeError.ring]
    exact ⟨rfl, rfl, rfl, rfl, rfl⟩
  | ok =>
    refine ⟨_, takeOutcome_ok found data, ?_⟩
    have counted := ((Acts.refl .exact r v).modTake (fun t => readsWithout t q u)).widen.countFree e.words data
    obtain ⟨w, status, -, run, answered⟩ := acts_takeOk counted nofun e
      ((v.modTake r (fun t => readsWithout t q u)).receivedWords e.words data)
    have same : ((v.modTake r (fun t => readsWithout t q u)).countFree e.words data).takeOk r e
        ((v.modTake r (fun t => readsWithout t q u)).receivedWords e.words data) = w.roomAppears r ∨
        ((v.modTake r (fun t => readsWithout t q u)).countFree e.words data).takeOk r e
        ((v.modTake r (fun t => readsWithout t q u)).receivedWords e.words data) = w := by
      rw [run]
      exact ite_eq_or_eq _ _ _
    rcases same with released | kept
    · obtain ⟨take, state⟩ := take_roomAppears w r
      rw [released, take, state, answered.ring]
      exact ⟨rfl, rfl, rfl, rfl, number_recordRead _ _ _ _⟩
    · rw [kept, answered.ring]
      exact ⟨rfl, rfl, rfl, rfl, number_recordRead _ _ _ _⟩

end

/-- Settles O40: each held request is judged when the event that held it ends. -/
theorem heldRequestsAreServed : Obligations.HeldRequestsAreServed := by
  refine ⟨?_, ?_, ?_, ?_⟩
  · rintro s r i q p u k timeout park e w n number gap stamp data d ⟨wf, -⟩ up busy found closes last sound checked
      request hold running message empty inside blocks absent parked alone rfl kept isGap rfl next
    obtain ⟨v, run, acts⟩ := exec_lastOutcome up busy found closes last request (ne_of_eq_of_ne running nofun) data
    have ring := acts.ring
    have reaches : (lastAnswered (s.ring r) q u).reachesAlign = true := (reachesAlign_iff _).2 ⟨sound, fun h =>
      checked.elim (fun other => other h.1) fun matched => nomatch matched.symm.trans h.2⟩
    obtain ⟨w', sampled, time, took, -, -, published⟩ := acts_publish_parked (s := v) (r := r) (gap := gap)
      (p := ⟨p, k, 0, n, false⟩) (number := number) (early := (v.ring r).earlyAt v.timebase)
      (by rw [(acts.quiet nofun).1]; exact wf) (by rw [ring]; exact message) (by rw [ring]; exact empty)
      (by rw [ring]; exact inside) (by rw [ring]; exact blocks) (by rw [ring]; exact absent)
      (by rw [ring]; exact parked) (by rw [ring]; exact alone) rfl rfl rfl (by rw [ring]; exact next) (earlyAt_iff _ _)
    obtain ⟨whole, last⟩ := acts_commitPublished acts rfl reaches kept isGap published w
    have done := judgePutQueue_none (by rw [whole.ring]; show (v.ring r).put.hold = []; rw [ring]; exact hold)
      (by rw [whole.ring]; rfl) whole
    have rest := judgePutQueue_none (by rw [last.ring]; show (v.ring r).put.hold = []; rw [ring]; exact hold)
      (by rw [last.ring]; rfl) last
    have stays := done.idleCondition_of_issue (List.mem_singleton_self _) (beq_self_eq_true r)
    have settled := done.settle_stays stays
    obtain ⟨survey, flags⟩ := (rest.settle_stays stays).unseen nofun nofun
    obtain ⟨survey₀, flags₀⟩ := acts.unseen nofun nofun
    rw [run]
    refine ⟨_, rfl, ?_, ?_, ?_, ?_, settled.upResponses.trans (List.append_assoc _ _ _).symm,
      sampled_parked (publishSampled_congr sampled survey₀.symm flags₀.symm acts.timebase.symm rfl rfl)
        (time.trans acts.timebase) (takeSampled_congr (acts.timebase ▸ took) rfl rfl rfl survey flags)⟩
    · rw [settled.ring]
      show ((v.ring r).t + 1) % (v.ring r).config.slots = _
      rw [ring]
      rfl
    · rw [settled.ring]
      rfl
    · rw [settled.ring]
      show (v.ring r).takenBy _ _ _ _ _ _ = _
      rw [ring, acts.timebase]
      rfl
    · rw [settled.issueQueue, ring, acts.timebase]
      rfl
  · intro s r i q p u k g timeout park e h ws data up busy found none present number covers message running parked
      alone closed fits room
    obtain ⟨w, status, -, run, acts, -⟩ := exec_readOk up busy found rfl data
    have matched : (readsWithout (s.ring r).take q u).record.matchesEntry e = true :=
      (matchesEntry_iff _ _).2 ⟨present, number⟩
    have released : recordRead (readsWithout (s.ring r).take q u).record (s.ring r).config e (wordsOf s e data) =
        (s.ring r).take.ended.record := by
      unfold recordRead
      rw [if_neg (not_not.2 ⟨present, number⟩), if_pos covers]
      rfl
    have space : (w.ring r).roomFor := by
      rw [acts.ring]
      refine .inr ?_
      show (s.ring r).occ + (if (recordRead _ _ _ _).present then 1 else 0) + 1 ≤ (s.ring r).config.slots
      rw [released]
      exact room
    dsimp only at run
    rw [matched, covers, Bool.true_and, if_pos rfl,
      roomAppears_parked (by rw [acts.ring]; simp [readAnswered, parked, HeadHold.isParked])
        (by rw [acts.ring]; exact message) space] at run
    rw [acts.ring] at space
    obtain ⟨opens, waits⟩ := acts_queueHeader acts (.inl nofun) alone running closed fits space
    by_cases clear : (s.ring r).put.generationClear
    · obtain ⟨head, waited⟩ := acts_judgeTakeWaiting_none (opens clear) (by
        rw [take_openedBy (by exact message)]
        exact none)
      have settled := waited.settle_stays (waited.idleCondition_of_state (.inr running))
      refine ⟨_, run, ?_, fun _ => ⟨?_, settled.issueQueue.trans rfl⟩, fun held => absurd clear held⟩
      · rw [settled.ring]
        show ((readAnswered _ _ _ _ _).openedBy _ _ _ _).take.record = _
        rw [take_openedBy (by exact message)]
        exact released
      · rw [settled.ring]
        rfl
    · obtain ⟨head, waited⟩ := acts_judgeTakeWaiting_none (waits clear) none
      have settled := waited.settle_stays (waited.idleCondition_of_state (.inr running))
      refine ⟨_, run, ?_, fun yes => absurd yes clear, fun _ => ⟨?_, settled.issueQueue.trans (List.append_nil _)⟩⟩
      · rw [settled.ring]
        exact released
      · rw [settled.ring]
        rfl
  · rintro s q r p k park h ws x read reaches present message running parked alone closed fits room rfl rfl
    obtain ⟨run, queued⟩ := exec_of_reachesTake reaches (p := ⟨q.requester, q.tag, (s.ring r).config.slotWords,
      q.count, true⟩) (by unfold takeAt; rw [decide_eq_true rfl])
    obtain ⟨-, -, -, -, hold⟩ := reaches
    generalize takeQueued (s.enterOutstanding q) r _ = v at run queued
    have judged := judgeTake_release (r := r) (v := v)
      (p := ⟨q.requester, q.tag, (s.ring r).config.slotWords, q.count, true⟩) rfl
    have released := (queued.handRead ⟨q.requester, q.tag, (s.ring r).config.slotWords, q.count, true⟩ 0 1
      false).clearTake
    rw [judgeRelease_present (by rw [queued.ring]; exact present), State.releaseTake,
      roomAppears_parked (by rw [released.ring]; simp [withTake, parked, HeadHold.isParked])
        (by rw [released.ring]; exact message) (by rw [released.ring]; exact .inr room)] at judged
    obtain ⟨opens, waits⟩ := acts_queueHeader released (.inr (takeInTheWay_message message)) alone running closed fits (.inr room)
    refine ⟨fun generation => ?_, fun held => ?_⟩
    · have opened := opens generation
      rw [openedBy_message (by exact message)] at opened
      have left := acts_takeLeft queued judged opened
      have settled := left.settle_stays (left.idleCondition_of_state (.inr running))
      rw [run, openedBy_message (by exact message)]
      refine congrArg _ (eq_of_handed_exact (settled.cast ?_ rfl rfl))
      show ({ s.ring r with
        put := (s.ring r).openedPut p k h ws
        take := { (s.ring r).take.ended with
          reads := (s.ring r).take.reads ++ [⟨q.requester, q.tag, (s.ring r).config.slotWords, q.count,
            (s.ring r).take.record.number, false, 1⟩]
          hold := []
          head := .clear } } : Ring) = _
      rw [← hold]
      rfl
    · have left := acts_takeLeft queued judged (waits held)
      have settled := left.settle_stays (left.idleCondition_of_state (.inr running))
      rw [run]
      refine congrArg _ (eq_of_handed_exact (settled.cast ?_ rfl rfl))
      show ({ s.ring r with
        put := { (s.ring r).put with head := .waiting }
        take := { (s.ring r).take.ended with
          reads := (s.ring r).take.reads ++ [⟨q.requester, q.tag, (s.ring r).config.slotWords, q.count,
            (s.ring r).take.record.number, false, 1⟩]
          hold := []
          head := .clear } } : Ring) = _
      rw [← hold]
      rfl
  · rintro s r i q u g timeout c status tags e p x words up busy outcome found waits alone serving rfl words
    have active : (s.ring r).state ≠ .aborting := by rcases serving with state | state <;> rw [state] <;> nofun
    refine ⟨fun ⟨d, member, number, other⟩ => ?_, fun others on present number covers ok read above cursor => ?_⟩
    · obtain ⟨en, data, run, -, -⟩ := exec_outcome up busy outcome
      obtain ⟨z, judged, state, reads, hold, head, same⟩ := takeOutcome_waits (v := s.setTag i en) found status data
      have flight : (z.ring r).take.readInFlight = true := by
        rw [readInFlight_iff, reads, same]
        exact ⟨d, List.mem_filter.2 ⟨member, by simpa [imp_iff_not_or] using other⟩, number⟩
      have run : exec c s = .next (z.settle r) := by
        rw [run]
        show Host.Outcome.next (((s.setTag i en).takeOutcome r q u status data).settle r) = _
        rw [judged, judgeTakeWaiting_flight flight]
      have stays : z.settle r = z := by
        refine settle_of_not ?_
        rw [← Bool.not_eq_true, idleCondition_iff_enters]
        rintro ⟨-, aborting | ⟨-, -, -, -, -, none⟩⟩
        · exact active (state.symm.trans aborting)
        · rw [hold] at none
          exact List.cons_ne_nil _ _ (alone.symm.trans none)
      rw [stays] at run
      exact ⟨z, run, hold.trans alone, head.trans waits⟩
    · have response : ∃ data, c = .downstreamResponse i .ok data := by
        rcases outcome with ⟨data, rfl, -⟩ | ⟨-, -, failed, -⟩
        · exact ⟨data, by rw [ok]⟩
        · exact nomatch ok.symm.trans failed
      obtain ⟨data, rfl⟩ := response
      obtain ⟨w, status, -, run, acts, -⟩ := exec_readOk up busy found rfl data
      dsimp only at run
      rw [covers, Bool.and_false, if_neg Bool.false_ne_true] at run
      have record : recordRead (readsWithout (s.ring r).take q u).record (s.ring r).config e (wordsOf s e data) =
          { (s.ring r).take.record with
            crc := crcWords (s.ring r).take.record.crc (wordsOf s e data)
            cursor := min (e.offset + e.count) (s.ring r).take.record.lastUsed } := by
        unfold recordRead
        rw [if_neg (not_not.2 ⟨present, number⟩), covers, if_neg Bool.false_ne_true, if_pos on]
        rfl
      have none : ∀ d ∈ (s.ring r).take.reads.filter (fun e => !(e.requester == q && e.tag == u)),
          d.number ≠ (s.ring r).take.record.number := fun d member same => by
        obtain ⟨member, other⟩ := List.mem_filter.1 member
        obtain ⟨requester, tag⟩ := others d member same
        simp [requester, tag] at other
      have landed : (w.ring r).take.readInFlight = false := by
        rw [readInFlight_eq_false_iff, acts.ring]
        show ∀ d ∈ (s.ring r).take.reads.filter _, d.number ≠ (recordRead _ _ _ _).number
        rw [record]
        exact none
      rw [judgeTakeWaiting_serves (by rw [acts.ring]; exact waits) landed] at run
      unfold readAnswered at acts
      dsimp only at acts
      rw [record] at acts
      obtain ⟨cleared, loop⟩ := acts_judgeTakeQueue ((Acts.refl .exact r w).cast acts.ring rfl rfl)
      dsimp only at loop
      rw [loop, show (readsWithout (s.ring r).take q u).hold.length = 1 from congrArg List.length alone] at run
      generalize w.modTake r (fun p => { p with head := .clear }) = z at cleared run
      have waiting := cleared.cast (y := withTake { s.ring r with
        take := { readsWithout (s.ring r).take q u with
          record := { (s.ring r).take.record with
            crc := crcWords (s.ring r).take.record.crc (wordsOf s e data)
            cursor := min (e.offset + e.count) (s.ring r).take.record.lastUsed }
          refusal := (w.ring r).take.refusal }
        events := (w.ring r).events } p) (by
          rw [acts.ring]
          unfold withTake
          rw [← alone]
          rfl) rfl rfl
      have served := acts_serves waiting read present (cursor.trans_le (Nat.min_le_right _ _)) words
        (.inr (.inl ⟨cursor, above, none⟩))
      have both := acts.trans served.widen
      have settled := both.settle_stays
        (both.idleCondition_of_issue (List.mem_singleton_self _) (beq_self_eq_true r))
      refine ⟨_, run, ?_, ?_, ?_, settled.issueQueue⟩
      · rw [settled.ring]
      · rw [settled.ring]
      · rw [settled.ring]
        rfl

end Sys2Proof.Laws

/-! PROOFS. The survey's commands and its own events: ARM, DISARM, the interval, SYNC and the holdoff
(R149 to R158). -/

namespace Sys2Proof.Laws

open Sys2Proof.Machine

/-! ## Samples of occ -/

/-- A sample of the source ring's occ, taken by a unit brought to `v` first. -/
theorem sampled_surveySampleOcc {s w : State} (frame : w = { s with syncLevel := w.syncLevel, survey := w.survey }) :
    SampledTo w.survey s.globalFlags s.timebase (s.ring w.survey.setup.source).occ
        w.surveySampleOcc.survey w.surveySampleOcc.globalFlags ∧
      w.surveySampleOcc = { s with
        syncLevel := w.syncLevel
        survey := w.surveySampleOcc.survey
        globalFlags := w.surveySampleOcc.globalFlags
        driver := w.surveySampleOcc.driver } := by
  have ring : w.ring w.survey.setup.source = s.ring w.survey.setup.source := by
    generalize w.survey.setup.source = q
    rw [frame]
    rfl
  have flags : w.globalFlags = s.globalFlags := by rw [frame]
  have time : w.timebase = s.timebase := by rw [frame]
  constructor
  · have sample := sampledTo_surveySample w (w.ring w.survey.setup.source).occ
    rw [flags, time, ring] at sample
    unfold State.surveySampleOcc
    rw [ring]
    exact sample
  · have rest := surveySample_rest w (w.ring w.survey.setup.source).occ
    change w.surveySampleOcc = { w with
      survey := w.surveySampleOcc.survey
      globalFlags := w.surveySampleOcc.globalFlags
      driver := w.surveySampleOcc.driver } at rest
    generalize w.surveySampleOcc = t at rest ⊢
    conv_lhs => rw [rest, frame]

/-! ## ARM and DISARM (R149, R150) -/

theorem armResult_judged (s : State) : firstOf .accepted
    [(s.survey.state ≠ .idle, .wrongState),
     ((s.survey.setup.quantity = .dwell ∧ s.survey.setup.trigger ≠ .take) ∨
       s.survey.setup.highLimit < s.survey.setup.lowLimit, .badSetup),
     ((s.ring s.survey.setup.source).state = .idle ∨
       (s.ring s.survey.setup.source).state = .aborting, .sourceIdle)] s.armResult := by
  unfold State.armResult
  have rests : (s.ring s.survey.setup.source).state.serving = false ↔
      ((s.ring s.survey.setup.source).state = .idle ∨ (s.ring s.survey.setup.source).state = .aborting) := by
    cases (s.ring s.survey.setup.source).state <;> simp [RingState.serving]
  refine ⟨fun busy => if_pos ((busy_iff _).2 busy), fun free => ⟨fun bad => ?_, fun good => ⟨fun idle => ?_, fun serves => ?_⟩⟩⟩
  all_goals rw [← busy_iff] at free
  · have limits : (s.survey.setup.quantity = .dwell ∧ s.survey.setup.trigger ≠ .take) ∨
        s.survey.setup.highLimit.toNat < s.survey.setup.lowLimit.toNat := bad
    rw [if_neg free, if_pos limits]
  · have limits : ¬((s.survey.setup.quantity = .dwell ∧ s.survey.setup.trigger ≠ .take) ∨
        s.survey.setup.highLimit.toNat < s.survey.setup.lowLimit.toNat) := good
    rw [if_neg free, if_neg limits, rests.2 idle]
    rfl
  · have limits : ¬((s.survey.setup.quantity = .dwell ∧ s.survey.setup.trigger ≠ .take) ∨
        s.survey.setup.highLimit.toNat < s.survey.setup.lowLimit.toNat) := good
    rw [← rests, Bool.not_eq_false] at serves
    rw [if_neg free, if_neg limits, serves]
    rfl

theorem commandPort_eq (s : State) (reg : Reg) : s.commandPort reg =
    if s.portStandsAt reg then s.port.answered .ack .none else s.port := rfl

/-- A global command whose effect leaves the port alone: what it leaves besides. -/
theorem takeGlobalCommand_of_port {s u : State} {c : GlobalCommand} (effect : s.globalEffect c = u)
    (port : u.port = s.port) : s.takeGlobalCommand c = { u with
      port := { s.commandPort (.global .command) with command := c.code, result := s.globalOutcome c } } := by
  rw [takeGlobalCommand_eq, effect]
  exact modPort_of_port _ port _ rfl

theorem surveyArm_of_refused {s : State} (refused : s.armResult ≠ .accepted) : s.surveyArm = s := by
  unfold State.surveyArm
  split
  · exact absurd ‹_› refused
  all_goals rfl

theorem surveyArm_of_accepted {s : State} (accepted : s.armResult = .accepted) : s.surveyArm = s.surveyBegin := by
  unfold State.surveyArm
  rw [accepted]

theorem surveyBegin_of_watch {s : State} (watches : s.survey.setup.trigger = .commit ∨ s.survey.setup.trigger = .take) :
    s.surveyBegin = { s with survey := { s.survey with state := .sampling, acc := Accumulators.zero } } := by
  unfold State.surveyBegin
  rcases watches with trigger | trigger <;> rw [trigger] <;> rfl

theorem surveyBegin_of_sync {s : State}
    (sync : s.survey.setup.trigger = .syncRise ∨ s.survey.setup.trigger = .syncFall) :
    s.surveyBegin = { s with survey := { s.survey with state := .armed, acc := Accumulators.zero } } := by
  unfold State.surveyBegin
  rcases sync with trigger | trigger <;> rw [trigger] <;> rfl

/-- The unit as the ARM of a TIMER cycle takes its first sample. -/
def timerStart (s : State) : State :=
  s.modSurvey (fun v => { v with state := .sampling, acc := Accumulators.zero })

theorem surveyBegin_of_timer {s : State} (timer : s.survey.setup.trigger = .timer) :
    s.surveyBegin = (timerStart s).surveySampleOcc := by
  unfold State.surveyBegin
  rw [timer]
  rfl

theorem surveyArm_port (s : State) : s.surveyArm.port = s.port := by
  by_cases accepted : s.armResult = .accepted
  · rw [surveyArm_of_accepted accepted]
    cases trigger : s.survey.setup.trigger
    case timer =>
      rw [surveyBegin_of_timer trigger, (sampled_surveySampleOcc (s := s) (w := timerStart s) rfl).2]
    case syncRise => rw [surveyBegin_of_sync (.inl trigger)]
    case syncFall => rw [surveyBegin_of_sync (.inr trigger)]
    case commit => rw [surveyBegin_of_watch (.inl trigger)]
    case take => rw [surveyBegin_of_watch (.inr trigger)]
  · rw [surveyArm_of_refused accepted]

/-- Settles O44: the command is its effect with the answer of the port; the effect of an accepted ARM is read by
the trigger. -/
theorem armAndDisarmAreJudged : Obligations.ArmAndDisarmAreJudged := by
  intro s up
  refine ⟨⟨s.takeGlobalCommand .surveyArm, s.armResult, congrArg Host.Outcome.next (whileUp_of_up up _), ?_⟩, ?_⟩
  · obtain ⟨u, effect⟩ : ∃ u, s.surveyArm = u := ⟨_, rfl⟩
    rw [takeGlobalCommand_of_port (c := .surveyArm) effect (by rw [← effect]; exact surveyArm_port s)]
    refine ⟨rfl, armResult_judged s, fun refused => ?_, fun accepted watches => ?_, fun accepted sync => ?_,
      fun accepted timer => ?_⟩
    · rw [← effect, surveyArm_of_refused refused]
    · rw [← effect, surveyArm_of_accepted accepted, surveyBegin_of_watch watches]
    · rw [← effect, surveyArm_of_accepted accepted, surveyBegin_of_sync sync]
    · rw [surveyArm_of_accepted accepted, surveyBegin_of_timer timer] at effect
      obtain ⟨sampled, rest⟩ := sampled_surveySampleOcc (s := s) (w := timerStart s) rfl
      rw [effect] at sampled rest
      refine ⟨sampled, ?_⟩
      dsimp only
      conv_lhs => rw [rest]
      rfl
  · have disarm : s.surveyDisarm = { s with
        survey := if s.survey.state = .idle then s.survey
          else { s.survey with state := .idle, acc := Accumulators.zero, delayTimer := none, intervalTimer := none } } := by
      unfold State.surveyDisarm
      by_cases idle : s.survey.state = .idle
      · rw [if_pos idle, if_neg (fun busy => (busy_iff _).1 busy idle)]
      · rw [if_neg idle, if_pos ((busy_iff _).2 idle)]
        rfl
    have outcome : s.disarmResult = if s.survey.state = .idle then .wrongState else .accepted := by
      unfold State.disarmResult
      by_cases idle : s.survey.state = .idle
      · rw [if_pos idle, if_neg (fun busy => (busy_iff _).1 busy idle)]
      · rw [if_neg idle, if_pos ((busy_iff _).2 idle)]
    have taken := takeGlobalCommand_of_port (c := .surveyDisarm) disarm rfl
    change s.takeGlobalCommand .surveyDisarm = { s with
      port := { s.commandPort (.global .command) with command := 3, result := s.disarmResult }
      survey := _ } at taken
    rw [outcome] at taken
    exact congrArg Host.Outcome.next ((whileUp_of_up up _).trans taken)

/-! ## The survey's own events (R151, R153, R154) -/

theorem inHoldoff_iff (v : Survey) : v.inHoldoff = true ↔
    (v.setup.trigger = .syncRise ∨ v.setup.trigger = .syncFall) ∧ v.setup.holdoff = true := by
  unfold Survey.inHoldoff
  cases v.setup.trigger <;> simp [Trigger.isSync]

theorem matchesLevel_iff (c : SurveySetup) (high : Bool) : c.trigger.matchesLevel high = true ↔ c.selects high := by
  unfold SurveySetup.selects
  cases c.trigger <;> simp [Trigger.matchesLevel]

theorem syncEdge_eq {s : State} (up : s.resetN = true) (rising : Bool) : s.syncEdge rising =
    if s.survey.state = .armed ∧ s.survey.setup.trigger.matchesLevel rising = true ∧ s.survey.delayTimer = none then
      if s.survey.setup.syncDelay = 0 then ({ s with syncLevel := rising } : State).surveySampleOcc
      else { s with
        syncLevel := rising
        survey := { s.survey with delayTimer := some ⟨s.timebase, s.survey.setup.syncDelay.toNat⟩ } }
    else { s with syncLevel := rising } := by
  unfold State.syncEdge
  simp only [up, true_and]
  rfl

theorem syncDelayExpiry_eq {s : State} {timer : Timer} (armed : s.survey.state = .armed)
    (runs : s.survey.delayTimer = some timer) : s.syncDelayExpiry =
    if timer.due s.timebase = true then
      if s.survey.setup.trigger.matchesLevel s.syncLevel = true then
        (s.modSurvey (fun v => { v with delayTimer := none })).surveySampleOcc
      else { s with survey := { s.survey with delayTimer := none } }
    else s := by
  have expires : (s.survey.state = .armed ∧ timerDue s.timebase s.survey.delayTimer = true) ↔
      timer.due s.timebase = true := by rw [runs, timerDue_some, and_iff_right armed]
  unfold State.syncDelayExpiry
  simp only [expires]
  rfl

theorem surveyIntervalExpiry_eq {s : State} {timer : Timer} (sampling : s.survey.state = .sampling)
    (runs : s.survey.intervalTimer = some timer) (interval : s.survey.inHoldoff = false) :
    s.surveyIntervalExpiry = if timer.due s.timebase = true then s.surveySampleOcc else s := by
  unfold State.surveyIntervalExpiry
  simp only [sampling, runs, timerDue_some, true_and, interval, Bool.not_false, and_true]

theorem surveyHoldoffExpiry_eq {s : State} {timer : Timer} (sampling : s.survey.state = .sampling)
    (runs : s.survey.intervalTimer = some timer) (holdoff : s.survey.inHoldoff = true) :
    s.surveyHoldoffExpiry = if timer.due s.timebase = true then
      { s with survey := { s.survey with state := .armed, intervalTimer := none } } else s := by
  unfold State.surveyHoldoffExpiry
  simp only [sampling, runs, timerDue_some, true_and, holdoff, and_true]
  rfl

/-- Settles O45: each event is its test, and where the test holds a sample or a change of the unit's own state. -/
theorem expiriesAndEdgesTakeSamples : Obligations.ExpiriesAndEdgesTakeSamples := by
  refine ⟨fun s timer up sampling runs interval => ?_, fun s rising up => ?_, fun s timer up armed runs => ?_,
    fun s timer up sampling runs sync holdoff => ?_⟩
  · have noHoldoff : s.survey.inHoldoff = false := by
      rw [← Bool.not_eq_true, inHoldoff_iff]
      rintro ⟨sync, holdoff⟩
      rcases interval with timer | off
      · rcases sync with sync | sync <;> exact nomatch (timer.symm.trans sync : Trigger.timer = _)
      · exact Bool.noConfusion (off.symm.trans holdoff)
    have run : exec .surveyIntervalExpiry s = .next s.surveyIntervalExpiry :=
      congrArg Host.Outcome.next (whileUp_of_up up _)
    rw [run, surveyIntervalExpiry_eq sampling runs noHoldoff]
    refine ⟨fun early => by rw [early]; rfl, fun due => ?_⟩
    rw [if_pos due]
    obtain ⟨sampled, rest⟩ := sampled_surveySampleOcc (s := s) (w := s) rfl
    exact ⟨_, rfl, sampled, rest⟩
  · have run : exec (.syncEdge rising) s = .next (s.syncEdge rising) := rfl
    rw [run, syncEdge_eq up]
    refine ⟨fun unseen => by rw [if_neg (fun ⟨a, m, f⟩ => unseen ⟨a, f, (matchesLevel_iff _ _).1 m⟩)], fun armed free selects => ?_⟩
    rw [if_pos ⟨armed, (matchesLevel_iff _ _).2 selects, free⟩]
    refine ⟨fun delayed => by rw [if_neg delayed], fun undelayed => ?_⟩
    rw [if_pos undelayed]
    obtain ⟨sampled, rest⟩ := sampled_surveySampleOcc (s := s) (w := { s with syncLevel := rising }) rfl
    exact ⟨_, rfl, sampled, rest⟩
  · have run : exec .syncDelayExpiry s = .next s.syncDelayExpiry := congrArg Host.Outcome.next (whileUp_of_up up _)
    rw [run, syncDelayExpiry_eq armed runs]
    refine ⟨fun early => by rw [early]; rfl, fun due other => by rw [if_pos due, if_neg (fun m => other ((matchesLevel_iff _ _).1 m))],
      fun due selects => ?_⟩
    rw [if_pos due, if_pos ((matchesLevel_iff _ _).2 selects)]
    obtain ⟨sampled, rest⟩ := sampled_surveySampleOcc (s := s)
      (w := s.modSurvey (fun v => { v with delayTimer := none })) rfl
    exact ⟨_, rfl, sampled, rest⟩
  · have run : exec .holdoffExpiry s = .next s.surveyHoldoffExpiry :=
      congrArg Host.Outcome.next (whileUp_of_up up _)
    rw [run, surveyHoldoffExpiry_eq sampling runs ((inHoldoff_iff _).2 ⟨sync, holdoff⟩)]
    exact ⟨fun early => by rw [early]; rfl, fun due => by rw [if_pos due]⟩

end Sys2Proof.Laws

/-! PROOFS. The management port: transactions, the map of the registers, and data bytes by the class of
their field (R171 to R174, R177, R178). -/

namespace Sys2Proof.Laws

open Sys2Proof.Machine

/-! ## The map (tables 11.3, 11.4, 11.10) -/

/-- The fields follow one another without a gap, from subaddress `low` up to below `high`. -/
def tiles (high : Nat) : Nat → List RegField → Bool
  | low, [] => decide (low = high)
  | low, f :: rest => decide (f.low = low) && decide (0 < f.bytes) && tiles high (low + f.bytes) rest

theorem tiles_pageFields : ∀ p : Fin 18, tiles (pageTop p + 1) 0 (pageFields p) = true := by decide +kernel

theorem covers_iff (f : RegField) (sub : Nat) : f.covers sub = true ↔ f.low ≤ sub ∧ sub < f.low + f.bytes := by
  unfold RegField.covers
  rw [Bool.and_eq_true, decide_eq_true_iff, decide_eq_true_iff]

section

variable {high : Nat}

theorem tiles_cons {low : Nat} {f : RegField} {rest : List RegField} (h : tiles high low (f :: rest) = true) :
    f.low = low ∧ 0 < f.bytes ∧ tiles high (low + f.bytes) rest = true := by
  simpa [tiles, and_assoc] using h

/-- Fields that follow one another lie at or above the first subaddress and end below the last. -/
theorem bounds_of_tiles : ∀ {l : List RegField} {low : Nat}, tiles high low l = true →
    ∀ f ∈ l, low ≤ f.low ∧ f.low + f.bytes ≤ high := by
  intro l
  induction l with
  | nil => exact fun _ _ mem => absurd mem List.not_mem_nil
  | cons f rest ih =>
    intro low tile g mem
    obtain ⟨starts, some, later⟩ := tiles_cons tile
    have ends : low + f.bytes ≤ high := by
      cases rest with
      | nil => exact Nat.le_of_eq (of_decide_eq_true later)
      | cons g more =>
        obtain ⟨above, below⟩ := ih later g (List.mem_cons_self ..)
        omega
    rcases List.mem_cons.1 mem with rfl | mem
    · omega
    · obtain ⟨above, below⟩ := ih later g mem
      omega

theorem find_of_tiles {sub : Nat} : ∀ {l : List RegField} {low : Nat}, tiles high low l = true → low ≤ sub →
    sub < high → ∃ f, l.find? (fun f => f.covers sub) = some f ∧ f ∈ l ∧ f.covers sub = true ∧
      ∀ g ∈ l, g.covers sub = true → g = f := by
  intro l
  induction l with
  | nil =>
    intro low tile above below
    have : low = high := of_decide_eq_true tile
    omega
  | cons f rest ih =>
    intro low tile above below
    obtain ⟨starts, some, later⟩ := tiles_cons tile
    by_cases inside : sub < low + f.bytes
    · have covers : f.covers sub = true := (covers_iff f sub).2 (by omega)
      refine ⟨f, List.find?_cons_of_pos covers, List.mem_cons_self .., covers, fun g mem covered => ?_⟩
      rcases List.mem_cons.1 mem with same | mem
      · exact same
      · have := (bounds_of_tiles later g mem).1
        have := (covers_iff g sub).1 covered
        omega
    · have misses : ¬f.covers sub = true := fun covered => by
        have := (covers_iff f sub).1 covered
        omega
      obtain ⟨g, found, mem, covers, only⟩ := ih later (by omega) below
      refine ⟨g, (List.find?_cons_of_neg (p := fun f : RegField => f.covers sub) misses).trans found, List.mem_cons_of_mem _ mem, covers,
        fun e mem covered => ?_⟩
      rcases List.mem_cons.1 mem with rfl | mem
      · exact absurd covered misses
      · exact only e mem covered

end

theorem fieldAt_of_le {p : Fin 18} {sub : Nat} (within : sub ≤ pageTop p) : ∃ f, fieldAt p sub = some f ∧
    f ∈ pageFields p ∧ f.covers sub = true ∧ ∀ g ∈ pageFields p, g.covers sub = true → g = f :=
  find_of_tiles (tiles_pageFields p) (Nat.zero_le _) (Nat.lt_succ_of_le within)

theorem fieldAt_of_lt {p : Fin 18} {sub : Nat} (above : pageTop p < sub) : fieldAt p sub = none := by
  refine List.find?_eq_none.2 fun f mem covered => ?_
  have := (bounds_of_tiles (tiles_pageFields p) f mem).2
  have := (covers_iff f sub).1 covered
  omega

/-! ## A data byte where the port stands -/

theorem exec_of_dataByteOf {c : Instr} {b : Byte} (carries : dataByteOf c = some b) (s : State) :
    exec c s = .next (s.whileUp (fun s => s.writeByte b)) := by
  unfold dataByteOf at carries
  split at carries <;> cases carries
  all_goals rfl

theorem exec_writeByte {s : State} (up : s.resetN = true) {c : Instr} {b : Byte} (carries : dataByteOf c = some b) :
    exec c s = .next (s.writeByte b) := by
  rw [exec_of_dataByteOf carries, whileUp_of_up up]

theorem writeByte_of_atByte {s : State} {f : RegField} {j : Nat} (stands : s.atByte f j) (b : Byte) :
    s.writeByte b = s.fieldByte f j b := by
  obtain ⟨-, writes, field, sub⟩ := stands
  unfold State.writeByte State.dataByte
  rw [if_pos writes, field, sub]
  show s.fieldByte f (f.low + j - f.low) b = _
  rw [Nat.add_sub_cancel_left]

theorem exec_fieldByte {s : State} {f : RegField} {j : Nat} (stands : s.atByte f j) {c : Instr} {b : Byte}
    (carries : dataByteOf c = some b) : exec c s = .next (s.fieldByte f j b) := by
  rw [exec_writeByte stands.1 carries, writeByte_of_atByte stands]

theorem writeByte_outside {s : State} (field : s.portField = none) (writes : s.port.transaction = .write)
    (b : Byte) : s.writeByte b = s.portNack := by
  unfold State.writeByte State.dataByte
  rw [if_pos writes, field]

theorem lt_bytes_of_portField {s : State} {f : RegField} {j : Nat} (field : s.portField = some f)
    (sub : s.port.sub.toNat = f.low + j) : j < f.bytes := by
  unfold State.portField fieldAt at field
  have := (covers_iff f _).1 (List.find?_some (p := fun f : RegField => f.covers _) field)
  omega

theorem fieldByte_ro {f : RegField} (ro : f.access = .ro) (s : State) (j : Nat) (b : Byte) :
    s.fieldByte f j b = s.portNack := by
  unfold State.fieldByte
  rw [ro]

theorem fieldByte_cmd {f : RegField} (cmd : f.access = .cmd) (s : State) (j : Nat) (b : Byte) :
    s.fieldByte f j b = s.commandByte f b := by
  unfold State.fieldByte
  rw [cmd]

theorem fieldByte_page (s : State) (j : Nat) (b : Byte) : s.fieldByte pageRegister j b = s.pageByte b := rfl

section

variable {f : RegField} (value : f.access = .rw ∨ f.access = .idle) (other : f.reg ≠ .page)

include value other

theorem fieldByte_single (single : f.bytes = 1) (s : State) (j : Nat) (b : Byte) :
    s.fieldByte f j b = s.wholeValue f b.toNat := by
  unfold State.fieldByte
  rcases value with access | access <;> rw [access] <;> dsimp only <;> rw [if_neg other, if_pos single]

theorem fieldByte_staged (long : f.bytes ≠ 1) (s : State) (j : Nat) (b : Byte) :
    s.fieldByte f j b = s.stagedByte f j b := by
  unfold State.fieldByte
  rcases value with access | access <;> rw [access] <;> dsimp only <;> rw [if_neg other, if_neg long]

end

theorem stagedFor_zero (p : Port) (f : RegField) : p.stagedFor f 0 = some [] := rfl

theorem stagedFor_of_staging {p : Port} {f : RegField} {bs : List Byte} (later : bs.length ≠ 0)
    (staging : p.staging = some ⟨p.page, f.low, bs⟩) : p.stagedFor f bs.length = some bs := by
  unfold Port.stagedFor
  rw [if_neg later, staging]
  exact if_pos ⟨rfl, rfl, rfl⟩

theorem stagedFor_of_other {p : Port} {f : RegField} {j : Nat} (later : j ≠ 0)
    (misses : ∀ bs, p.staging = some ⟨p.page, f.low, bs⟩ → bs.length ≠ j) : p.stagedFor f j = none := by
  unfold Port.stagedFor
  rw [if_neg later]
  cases staging : p.staging with
  | none => rfl
  | some st =>
    obtain ⟨page, low, bytes⟩ := st
    refine if_neg ?_
    rintro ⟨rfl, rfl, length⟩
    exact misses _ staging length

theorem stagedByte_refused {s : State} {f : RegField} {j : Nat} (staged : s.port.stagedFor f j = none) (b : Byte) :
    s.stagedByte f j b = s.portNack := by
  unfold State.stagedByte
  rw [staged]

theorem stagedByte_held {s : State} {f : RegField} {j : Nat} {bs : List Byte}
    (staged : s.port.stagedFor f j = some bs) (more : j + 1 < f.bytes) (allowed : s.classAllows f 0 = true)
    (b : Byte) : s.stagedByte f j b = s.portHold ⟨s.port.page, f.low, bs ++ [b]⟩ := by
  unfold State.stagedByte
  rw [staged]
  dsimp only
  rw [if_neg (Nat.not_le.2 more), if_pos allowed]

theorem stagedByte_last {s : State} {f : RegField} {j : Nat} {bs : List Byte}
    (staged : s.port.stagedFor f j = some bs) (last : f.bytes ≤ j + 1) (b : Byte) :
    s.stagedByte f j b = s.wholeValue f (bytesValue (bs ++ [b])) := by
  unfold State.stagedByte
  rw [staged]
  dsimp only
  rw [if_pos last]

theorem wholeValue_refused {s : State} {f : RegField} {v : Nat} (refused : s.writeField f v = none) :
    s.wholeValue f v = s.portNack := by
  unfold State.wholeValue
  rw [refused]

theorem wholeValue_written {s t : State} {f : RegField} {v : Nat} (written : s.writeField f v = some t) :
    s.wholeValue f v = t.portAck := by
  unfold State.wholeValue
  rw [written]

theorem writeField_of_allowed {s : State} {f : RegField} {v : Nat} (allowed : s.classAllows f v = true) :
    s.writeField f v = s.writeReg f.reg v := if_pos allowed

theorem writeField_of_not {s : State} {f : RegField} {v : Nat} (barred : s.classAllows f v = false) :
    s.writeField f v = none := if_neg (Bool.eq_false_iff.1 barred)

theorem classAllows_rw {f : RegField} (rw : f.access = .rw) (s : State) (v : Nat) : s.classAllows f v = true := by
  unfold State.classAllows
  rw [rw]

theorem classAllows_idle {f : RegField} (idle : f.access = .idle) (s : State) (v : Nat) :
    s.classAllows f v = (s.ownerIdle f.reg || (decide (f.reg = .survey .repeats) && decide (v % 2 = 0))) := by
  unfold State.classAllows
  rw [idle]

theorem classAllows_locked {s : State} {f : RegField} (idle : f.access = .idle) (locked : s.ownerIdle f.reg = false)
    (other : f.reg ≠ .survey .repeats) (v : Nat) : s.classAllows f v = false := by
  rw [classAllows_idle idle, locked, decide_eq_false other]
  rfl

/-- A locked IDLE field refuses every byte (R25, R148). -/
theorem fieldByte_locked {s : State} {f : RegField} (idle : f.access = .idle) (locked : s.ownerIdle f.reg = false)
    (other : f.reg ≠ .survey .repeats) (j : Nat) (b : Byte) : s.fieldByte f j b = s.portNack := by
  have barred := classAllows_locked idle locked other
  have page : f.reg ≠ .page := fun page => by
    rw [page] at locked
    exact Bool.noConfusion locked
  by_cases single : f.bytes = 1
  · rw [fieldByte_single (.inr idle) page single, wholeValue_refused (writeField_of_not (barred _))]
  · rw [fieldByte_staged (.inr idle) page single]
    cases staged : s.port.stagedFor f j with
    | none => exact stagedByte_refused staged b
    | some bs =>
      by_cases last : f.bytes ≤ j + 1
      · rw [stagedByte_last staged last, wholeValue_refused (writeField_of_not (barred _))]
      · unfold State.stagedByte
        rw [staged]
        dsimp only
        rw [if_neg last, if_neg (Bool.eq_false_iff.1 (barred 0))]

/-! ## Commands carried by a byte (R27, R177, R178) -/

theorem portStandsAt_of_atByte {s : State} {f : RegField} {j : Nat} (stands : s.atByte f j) :
    s.portStandsAt f.reg = true := by
  obtain ⟨-, writes, field, -⟩ := stands
  simp [State.portStandsAt, writes, field]

theorem ringOfCode_code (c : RingCommand) : RingCommand.ofCode c.code = some c := by
  cases c <;> rfl

theorem ringOfCode_unknown : ∀ b : Byte, (b = 0 ∨ 5 < b.toNat) → RingCommand.ofCode b = none := by
  decide +kernel

theorem globalOfCode_code (c : GlobalCommand) : GlobalCommand.ofCode c.code = some c := by
  cases c <;> rfl

theorem globalOfCode_unknown : ∀ b : Byte, (b = 0 ∨ 3 < b.toNat) → GlobalCommand.ofCode b = none := by
  decide +kernel

theorem ringCommandByte {s : State} {r : RingId} (stands : s.atByte ⟨.ring r .command, 0x01, 1, .cmd⟩ 0)
    (c : RingCommand) : s.commandByte ⟨.ring r .command, 0x01, 1, .cmd⟩ c.code = s.takeRingCommand r c := by
  unfold State.commandByte State.takeRingCommand State.carriedBy
  dsimp only
  rw [ringOfCode_code, portStandsAt_of_atByte stands]
  rfl

theorem globalCommandByte {s : State} (stands : s.atByte ⟨.global .command, 0x09, 1, .cmd⟩ 0)
    (c : GlobalCommand) : s.commandByte ⟨.global .command, 0x09, 1, .cmd⟩ c.code = s.takeGlobalCommand c := by
  unfold State.commandByte State.takeGlobalCommand State.carriedBy
  dsimp only
  rw [globalOfCode_code, portStandsAt_of_atByte stands]
  rfl

/-- Settles O49: what a byte does is read by the access class of the field where the port stands. -/
theorem dataBytesAreJudgedByClass : Obligations.DataBytesAreJudgedByClass := by
  refine ⟨fun s f j b stands => ?_, fun s c b carries => ?_, fun s r stands => ?_, fun s stands => ?_⟩
  · rw [exec_fieldByte stands rfl]
    refine ⟨fun ro => by rw [fieldByte_ro ro]; rfl, fun idle locked other => by
      rw [fieldByte_locked idle locked other]; rfl, fun value long page => ?_⟩
    rw [fieldByte_staged value page long]
    have allowed : (f.access = .rw ∨ s.ownerIdle f.reg = true) → s.classAllows f 0 = true := fun open_ => by
      rcases value with rw | idle
      · exact classAllows_rw rw s 0
      · rcases open_ with rw | owner
        · exact classAllows_rw rw s 0
        · rw [classAllows_idle idle, owner]
          rfl
    refine ⟨fun first free => ?_, fun later misses => ?_, fun bs later more free staging length => ?_⟩
    · subst first
      have inside := lt_bytes_of_portField stands.2.2.1 stands.2.2.2
      rw [stagedByte_held (stagedFor_zero _ f) (by omega) (allowed free)]
      rfl
    · rw [stagedByte_refused (stagedFor_of_other later misses)]
      rfl
    · subst length
      rw [stagedByte_held (stagedFor_of_staging later staging) more (allowed free)]
      rfl
  · refine ⟨by rw [exec_of_dataByteOf carries, exec_of_dataByteOf (c := .registerWrite b) rfl], fun outside => ?_⟩
    rw [exec_of_dataByteOf carries]
    have unheard : s.writeByte b = s := if_neg outside
    unfold State.whileUp
    dsimp only
    rw [unheard, ite_self]
  · refine ⟨fun c => ?_, fun b unknown => ?_⟩
    · rw [exec_fieldByte stands rfl, fieldByte_cmd rfl, ringCommandByte stands, exec_row stands.1]
    · rw [exec_fieldByte stands rfl, fieldByte_cmd rfl]
      unfold State.commandByte
      dsimp only
      rw [ringOfCode_unknown b unknown]
      rfl
  · have command : ∀ c : GlobalCommand, exec (.registerWrite c.code) s = .next (s.takeGlobalCommand c) := fun c => by
      rw [exec_fieldByte stands rfl, fieldByte_cmd rfl, globalCommandByte stands]
    have row : ∀ c : GlobalCommand, s.whileUp (fun s => s.takeGlobalCommand c) = s.takeGlobalCommand c := fun c =>
      whileUp_of_up stands.1 _
    refine ⟨(command .softReset).trans (congrArg Host.Outcome.next (row .softReset).symm),
      (command .surveyArm).trans (congrArg Host.Outcome.next (row .surveyArm).symm),
      (command .surveyDisarm).trans (congrArg Host.Outcome.next (row .surveyDisarm).symm), fun b unknown => ?_⟩
    rw [exec_fieldByte stands rfl, fieldByte_cmd rfl]
    unfold State.commandByte
    dsimp only
    rw [globalOfCode_unknown b unknown]
    rfl

/-! ## Transactions (R171 to R173) -/

theorem nextSub_of_le {p : Port} (within : p.sub.toNat ≤ pageTop p.page) : p.nextSub = p.sub + 1 := if_pos within

theorem nextSub_of_lt {p : Port} (above : pageTop p.page < p.sub.toNat) : p.nextSub = p.sub :=
  if_neg (Nat.not_le.2 above)

theorem readByte_outside {s : State} (field : s.portField = none) (reads : s.port.transaction = .read) (ack : Bool) :
    s.readByte ack = s.modPort (fun p => p.sent 0xFF ack) := by
  unfold State.readByte
  rw [if_pos reads, field]

/-- Settles O48: a transaction's own bytes by their definitions; the fields of a page follow one another without a
gap from 0 to its highest subaddress. -/
theorem transactionsSelectMappedFields : Obligations.TransactionsSelectMappedFields := by
  refine ⟨fun s addr read up => ?_, fun s => rfl, fun s b up awaits => ?_, fun s b stands => ?_,
    fun p sub _ => ⟨fieldAt_of_le, fieldAt_of_lt⟩, fun s up field above => ⟨fun b writes => ?_, fun ack reads => ?_⟩⟩
  · show (.next (s.address addr read) : Answer) = _
    unfold State.address State.modPort
    simp only [up, Bool.true_and, beq_iff_eq]
    split <;> rfl
  · refine congrArg Host.Outcome.next ((whileUp_of_up up _).trans ?_)
    unfold State.subaddress
    rw [if_pos awaits]
    rfl
  · have zero : s.port.sub = 0 := BitVec.eq_of_toNat_eq stands.2.2.2
    rw [exec_fieldByte stands rfl, fieldByte_page]
    refine ⟨fun page => ?_, fun beyond => ?_⟩
    · unfold State.pageByte
      rw [dif_pos page]
      rfl
    · have next : s.port.nextSub = 1 := by
        rw [nextSub_of_le (by rw [zero]; exact Nat.zero_le _), zero]
        rfl
      unfold State.pageByte
      rw [dif_neg (Nat.not_lt.2 beyond), ← next]
      rfl
  · rw [exec_writeByte up rfl, writeByte_outside field writes]
    show (.next { s with port := { s.port with reply := .nack, staging := .none, sub := s.port.nextSub } } : Answer) = _
    rw [nextSub_of_lt above]
  · refine congrArg Host.Outcome.next ((whileUp_of_up up _).trans ?_)
    dsimp only
    rw [readByte_outside field reads]
    show ({ s with port := { s.port with
      reply := .sent 0xFF, sub := s.port.nextSub, transaction := _ } } : State) = _
    rw [nextSub_of_lt above]

end Sys2Proof.Laws

/-! PROOFS. The Event Unit at the management port and over time: clear events, enable writes, reports, the
coalescing period and the release pulse (R162 to R167). -/

namespace Sys2Proof.Laws

open Sys2Proof.Machine

/-! ## One byte of a flag or enable field in its place -/

theorem testBit_byteInPlace (n j : Nat) (b : Byte) (i : Nat) : (byteInPlace n j b).testBit i =
    (decide (i / 8 = n - 1 - j) && b.getLsbD (i % 8)) := by
  unfold byteInPlace
  rw [Nat.testBit_mul_two_pow]
  by_cases place : i / 8 = n - 1 - j
  · have offset : i - 8 * (n - 1 - j) = i % 8 := by omega
    rw [decide_eq_true place, decide_eq_true (show 8 * (n - 1 - j) ≤ i by omega), offset, BitVec.testBit_toNat]
  · rw [decide_eq_false place, Bool.false_and]
    by_cases above : 8 * (n - 1 - j) ≤ i
    · rw [BitVec.testBit_toNat, BitVec.getLsbD_of_ge _ _ (by omega), Bool.and_false]
    · rw [decide_eq_false above, Bool.false_and]

/-- A value with one byte replaced has that byte's bits in its place and its own elsewhere. -/
theorem testBit_replaceByte (n j v : Nat) (b : Byte) (i : Nat) : (replaceByte n j v b).testBit i =
    if i / 8 = n - 1 - j then b.getLsbD (i % 8) else v.testBit i := by
  unfold replaceByte byteInPlace byteOf
  generalize n - 1 - j = k
  have split (x : Nat) (y : Nat) : (2 ^ (8 * k) * (2 ^ 8 * x + b.toNat) + v % 2 ^ (8 * k)) = y → y.testBit i =
      if i / 8 = k then b.getLsbD (i % 8) else if i < 8 * k then v.testBit i else x.testBit (i - 8 * k - 8) := by
    rintro rfl
    rw [Nat.testBit_two_pow_mul_add _ (Nat.mod_lt _ (Nat.two_pow_pos _)), Nat.testBit_two_pow_mul_add _ b.isLt,
      Nat.testBit_mod_two_pow]
    by_cases low : i < 8 * k
    · rw [if_pos low, if_neg (by omega), if_pos low, decide_eq_true low, Bool.true_and]
    · by_cases place : i / 8 = k
      · have offset : i - 8 * k = i % 8 := by omega
        rw [if_neg low, if_pos place, offset, if_pos (Nat.mod_lt _ (by decide)), BitVec.testBit_toNat]
      · rw [if_neg low, if_neg place, if_neg low, if_neg (by omega)]
  rw [split (v / 2 ^ (8 * k) / 2 ^ 8)]
  · split
    · rfl
    · split
      · rfl
      · rw [Nat.testBit_div_two_pow, Nat.testBit_div_two_pow]
        congr 1
        omega
  · have whole := Nat.div_add_mod v (2 ^ (8 * k))
    have byte := Nat.div_add_mod (v / 2 ^ (8 * k)) (2 ^ 8)
    rw [BitVec.toNat_ofNat]
    generalize v / 2 ^ (8 * k) / 2 ^ 8 = hi at *
    generalize v / 2 ^ (8 * k) % 2 ^ 8 = mid at *
    generalize v % 2 ^ (8 * k) = lo at *
    rw [← byte] at whole
    rw [← whole, Nat.mul_add, Nat.mul_add, Nat.mul_comm mid, Nat.mul_comm b.toNat]
    omega

/-! ## The driver (R165, R167) -/

/-- The driver once flags `fresh` have become enabled-pending, of which those in `urgent` are URGENT. -/
theorem driverOnNew_fresh {w : Nat} (s : State) (fresh urgent : BitVec w) :
    s.driverOnNew ((fresh &&& urgent) != 0) ((fresh &&& ~~~urgent) != 0) =
      if fresh &&& urgent ≠ 0 then .asserted
      else if fresh ≠ 0 ∧ s.driver = .released ∧ s.period = 0 then .asserted else s.driver := by
  have notice (none : fresh &&& urgent = 0) : fresh &&& ~~~urgent = fresh := by
    refine BitVec.eq_of_getElem_eq fun i lt => ?_
    have bit : (fresh &&& urgent)[i] = false := by rw [none, getElem_zero' lt]
    rw [BitVec.getElem_and] at bit
    rw [BitVec.getElem_and, BitVec.getElem_not]
    cases flag : fresh[i] <;> simp_all
  unfold State.driverOnNew
  by_cases none : fresh &&& urgent = 0
  · rw [notice none, none]
    simp [and_assoc]
  · rw [if_pos (bne_iff_ne.2 none), if_pos none]

/-- What becomes enabled-pending by a write of the enables. -/
theorem fresh_of_enables {w : Nat} (flags old new : BitVec w) :
    (flags &&& new) &&& ~~~(flags &&& old) = flags &&& new &&& ~~~old := by
  refine BitVec.eq_of_getElem_eq fun i lt => ?_
  simp only [BitVec.getElem_and, BitVec.getElem_not]
  cases flags[i] <;> simp

theorem releaseIfNone_eq (s : State) : s.releaseIfNone =
    { s with driver := if s.anyPending = false then .released else s.driver } := by
  unfold State.releaseIfNone
  cases s.anyPending <;> rfl

theorem afterClear_eq (s : State) : s.afterClear = { s with
    driver := if s.anyPending = false then .released
      else if s.driver = .released then .released else .pulse ⟨s.timebase, 2⟩ } := by
  unfold State.afterClear
  cases s.anyPending
  · rfl
  · cases released : s.driver
    · exact congrArg (fun d => ({ s with driver := d } : State)) released
    · rfl
    · rfl

/-- A state whose flags and enables are those of another has something pending where the other does. -/
theorem anyPending_of_eq {s t : State} (rings : t.rings = s.rings) (flags : t.globalFlags = s.globalFlags)
    (enables : t.globalEnables = s.globalEnables) : t.anyPending = s.anyPending :=
  anyPending_congr (globalPending_congr flags enables) (fun r => by unfold State.ring; rw [rings])

/-! ## Clear events (R163) -/

theorem clearRingFlags_eq (s : State) (r : RingId) (mask : BitVec 18) (m : State)
    (cleared : m = s.modEvents r (fun e => { e with flags := e.flags &&& ~~~mask })) :
    s.clearRingFlags r mask = { m with
      driver := if m.anyPending = false then .released
        else if s.driver = .released then .released else .pulse ⟨s.timebase, 2⟩ } := by
  have driver : m.driver = s.driver := by rw [cleared]; rfl
  have time : m.timebase = s.timebase := by rw [cleared]; rfl
  unfold State.clearRingFlags
  rw [← cleared, afterClear_eq, driver, time]

theorem getElem_ofNat_of_lt {w i : Nat} (v : Nat) (lt : i < w) : (BitVec.ofNat w v)[i] = v.testBit i := by
  rw [← BitVec.getLsbD_eq_getElem lt, BitVec.getLsbD_ofNat, decide_eq_true lt, Bool.true_and]

theorem getElem_ofNat_testBit {w : Nat} (v : Nat) (i : Fin w) : (BitVec.ofNat w v)[i] = v.testBit i.val :=
  getElem_ofNat_of_lt v i.isLt

theorem ofNat_byteInPlace_single (b : Byte) : BitVec.ofNat 5 (byteInPlace 1 0 b) = b.setWidth 5 := by
  have place : byteInPlace 1 0 b = b.toNat := Nat.mul_one _
  rw [place, BitVec.ofNat_toNat]

theorem ofNat_replaceByte_single (v : BitVec 5) (b : Byte) :
    BitVec.ofNat 5 (replaceByte 1 0 v.toNat b) = b.setWidth 5 := by
  refine BitVec.eq_of_getElem_eq fun i lt => ?_
  have place : i / 8 = 1 - 1 - 0 := by omega
  have offset : i % 8 = i := by omega
  rw [getElem_ofNat_of_lt _ lt, testBit_replaceByte, if_pos place, BitVec.getElem_setWidth, offset]

/-! ## Enable writes (R164) -/

theorem setRingEnables_eq (s : State) (r : RingId) (en fresh : BitVec 18) (m : State)
    (set : m = s.modEvents r (fun e => { e with enables := en }))
    (new : fresh = (s.ring r).events.flags &&& en &&& ~~~(s.ring r).events.enables) :
    s.setRingEnables r en = { m with
      driver := if m.anyPending = false then .released
        else if fresh &&& 0x1C1B6#18 ≠ 0 then .asserted
        else if fresh ≠ 0 ∧ s.driver = .released ∧ s.period = 0 then .asserted else s.driver } := by
  unfold State.setRingEnables RingEvents.pending
  dsimp only
  rw [fresh_of_enables, ← new, ← set, driverOnNew_fresh, ringUrgentMask_eq, releaseIfNone_eq,
    anyPending_of_eq (s := m) rfl rfl rfl]
  rfl

theorem setGlobalEnables_eq (s : State) (en fresh : BitVec 5) (m : State) (set : m = { s with globalEnables := en })
    (new : fresh = s.globalFlags &&& en &&& ~~~s.globalEnables) :
    s.setGlobalEnables en = { m with
      driver := if m.anyPending = false then .released
        else if fresh &&& 11#5 ≠ 0 then .asserted
        else if fresh ≠ 0 ∧ s.driver = .released ∧ s.period = 0 then .asserted else s.driver } := by
  unfold State.setGlobalEnables State.globalPending
  dsimp only
  rw [fresh_of_enables, ← new, driverOnNew_fresh, globalUrgentMask_eq, releaseIfNone_eq,
    anyPending_of_eq (s := m) (by rw [set]) (by rw [set]) (by rw [set]), set]

/-- Settles O46: the byte's bits stand in its place of the field; the driver is what the clear event or the enable
write makes of the flags that are enabled-pending. -/
theorem flagAndEnableBytesDriveTheLine : Obligations.FlagAndEnableBytesDriveTheLine := by
  refine ⟨fun s r j b stands inside => ?_, fun s b stands => ?_, fun s r j b fresh stands inside => ?_,
    fun s b fresh stands new => ?_⟩
  · obtain ⟨m, cleared⟩ : ∃ m, m = s.modEvents r (fun e =>
        { e with flags := e.flags &&& ~~~(BitVec.ofNat 18 (byteInPlace 3 j b)) }) := ⟨_, rfl⟩
    have ring : m.ring r = { s.ring r with events := { (s.ring r).events with
        flags := (s.ring r).events.flags &&& ~~~(BitVec.ofNat 18 (byteInPlace 3 j b)) } } := by
      rw [cleared, ring_modEvents_self]
    have run : exec (.flagClear b) s = .next (s.clearRingFlags r (BitVec.ofNat 18 (byteInPlace 3 j b))).portAck :=
      exec_fieldByte stands rfl
    rw [clearRingFlags_eq s r _ m cleared] at run
    refine ⟨_, run, fun i => ?_, ?_, fun p other => ?_, ?_, ?_⟩
    · show (m.ring r).events.flags[i] = _
      rw [ring]
      show ((s.ring r).events.flags &&& ~~~(BitVec.ofNat 18 (byteInPlace 3 j b)))[i] = _
      have flip : (~~~(BitVec.ofNat 18 (byteInPlace 3 j b)))[i] = !(BitVec.ofNat 18 (byteInPlace 3 j b))[i] :=
        BitVec.getElem_not i.isLt
      rw [Fin.getElem_fin, BitVec.getElem_and, ← Fin.getElem_fin, ← Fin.getElem_fin, flip, getElem_ofNat_testBit,
        testBit_byteInPlace]
    · show m.ring r = { s.ring r with events := { (s.ring r).events with flags := (m.ring r).events.flags } }
      rw [ring]
    · show m.ring p = s.ring p
      rw [cleared, ring_modEvents_other _ _ (Ne.symm other)]
    · rw [anyPending_of_eq (s := m) rfl rfl rfl]
      rfl
    · rw [cleared]
      rfl
  · have run : exec (.flagClear b) s = .next (s.clearGlobalFlags (BitVec.ofNat 5 (byteInPlace 1 0 b))).portAck :=
      exec_fieldByte stands rfl
    rw [ofNat_byteInPlace_single] at run
    unfold State.clearGlobalFlags at run
    rw [afterClear_eq] at run
    refine ⟨_, run, ?_, rfl⟩
    rw [anyPending_of_eq (s := { s with globalFlags := s.globalFlags &&& ~~~(b.setWidth 5) }) rfl rfl rfl]
    rfl
  · obtain ⟨en, value⟩ : ∃ en, en = BitVec.ofNat 18 (replaceByte 3 j (s.ring r).events.enables.toNat b) := ⟨_, rfl⟩
    obtain ⟨m, set⟩ : ∃ m, m = s.modEvents r (fun e => { e with enables := en }) := ⟨_, rfl⟩
    have ring : m.ring r = { s.ring r with events := { (s.ring r).events with enables := en } } := by
      rw [set, ring_modEvents_self]
    have run : exec (.enableWrite b) s = .next (s.setRingEnables r en).portAck := by
      rw [value]
      exact exec_fieldByte stands rfl
    rw [setRingEnables_eq s r en _ m set rfl] at run
    refine ⟨_, run, fun i => ?_, ?_, fun p other => ?_, fun new => ?_, ?_⟩
    · show (m.ring r).events.enables[i] = _
      rw [ring]
      show en[i] = _
      rw [value, getElem_ofNat_testBit, testBit_replaceByte, BitVec.testBit_toNat]
      rfl
    · show m.ring r = { s.ring r with events := { (s.ring r).events with enables := (m.ring r).events.enables } }
      rw [ring]
    · show m.ring p = s.ring p
      rw [set, ring_modEvents_other _ _ (Ne.symm other)]
    · change fresh = (s.ring r).events.flags &&& (m.ring r).events.enables &&& ~~~(s.ring r).events.enables at new
      rw [ring] at new
      rw [anyPending_of_eq (s := m) rfl rfl rfl, new]
      rfl
    · rw [set]
      rfl
  · have run : exec (.enableWrite b) s =
        .next (s.setGlobalEnables (BitVec.ofNat 5 (replaceByte 1 0 s.globalEnables.toNat b))).portAck :=
      exec_fieldByte stands rfl
    rw [ofNat_replaceByte_single, setGlobalEnables_eq s _ fresh _ rfl new] at run
    refine ⟨_, run, ?_, rfl⟩
    rw [anyPending_of_eq (s := { s with globalEnables := b.setWidth 5 }) rfl rfl rfl]
    rfl

/-! ## Reports, the coalescing period and the release pulse (R162, R166, R167) -/

theorem driver_raise (s : State) (r : RingId) (f : RingFlag) : (s.raise r f).driver =
    if (s.ring r).events.flags &&& f.mask = 0 ∧ (s.ring r).events.enables &&& f.mask ≠ 0 ∧
        (f.urgent = true ∨ s.driver = .released ∧ s.period = 0) then .asserted
    else s.driver := by
  show s.driverOnNew _ _ = _
  unfold State.driverOnNew
  cases f.urgent <;> simp [and_assoc]

theorem assertNotice_eq (s : State) : s.assertNotice = { s with
    driver := if s.driver = .released ∧ s.noticeWaits = true then .asserted else s.driver } := by
  unfold State.assertNotice
  rw [noticePending_eq]
  by_cases waits : s.driver = .released ∧ s.noticeWaits = true
  · rw [if_pos waits, if_pos (by rw [decide_eq_true waits.1, waits.2]; rfl)]
  · rw [if_neg waits, if_neg (by simpa using waits)]

theorem coalescingTimer_eq (now : Time) (p : BitVec 8) : coalescingTimer now p =
    if p = 0 then none else some ⟨now, p.toNat * 1000⟩ := rfl

theorem setPeriod_eq (s : State) (p : BitVec 8) : s.setPeriod p = { s with
    period := p
    coalTimer := if p = 0 then none else some ⟨s.timebase, p.toNat * 1000⟩
    driver := if p = 0 ∧ s.driver = .released ∧ s.noticeWaits = true then .asserted else s.driver } := by
  unfold State.setPeriod
  dsimp only
  rw [assertNotice_eq]
  by_cases off : p = 0
  · rw [if_pos off]
    simp only [off, true_and]
    rfl
  · rw [if_neg off]
    simp only [off, false_and, if_false]
    rw [coalescingTimer_eq, if_neg off]

/-- Settles O47: the driver after a report by the flag's class; the period, its tick and the end of the pulse by
their definitions. -/
theorem reportsTicksAndPulsesDriveTheLine : Obligations.ReportsTicksAndPulsesDriveTheLine := by
  refine ⟨fun s q r takes guarded => ?_, fun s r up aborting clear elsewhere => ?_, fun s b stands => ?_,
    fun s timer up runs period => ?_, fun s ends up pulse => ?_⟩
  · refine ⟨_, exec_upstreamRequest_guardedWrite takes guarded, ?_⟩
    show ((s.enterOutstanding q).raise r .guardHit).driver = _
    rw [driver_raise]
    simp only [RingFlag.urgent, true_or, and_true]
    rfl
  · have enters : s.idleCondition r = true := (idleCondition_iff s r).2 (.inr ⟨aborting, clear⟩)
    have run : exec (.entryToIdle r) s = .next (s.settle r) := congrArg Host.Outcome.next (whileUp_of_up up _)
    have watch : (s.modRing r Ring.entered).surveySourceLoss r = s.modRing r Ring.entered :=
      if_neg (fun h => elsewhere h.2)
    refine ⟨_, run, ?_⟩
    unfold State.settle State.enterIdle
    rw [if_pos enters, watch, driver_raise, ring_modRing_self]
    simp only [RingFlag.urgent, Bool.false_eq_true, false_or]
    rfl
  · have value : BitVec.ofNat 8 b.toNat = b := BitVec.ofNat_toNat ..
    rw [exec_fieldByte stands rfl, fieldByte_single (.inl rfl) (nofun : Reg.global .period ≠ .page) rfl,
      wholeValue_written (writeField_of_allowed (classAllows_rw rfl s b.toNat))]
    show (.next (s.setPeriod (BitVec.ofNat 8 b.toNat)).portAck : Answer) = _
    rw [value, setPeriod_eq]
    rfl
  · have run : exec .coalescingTick s = .next s.coalescingTick := congrArg Host.Outcome.next (whileUp_of_up up _)
    rw [run]
    unfold State.coalescingTick
    rw [runs, timerDue_some]
    refine ⟨fun early => by rw [early]; rfl, fun due => ?_⟩
    rw [if_pos due, assertNotice_eq, coalescingTimer_eq, if_neg period]
    rfl
  · have run : exec .pulseEnd s = .next s.endPulse := congrArg Host.Outcome.next (whileUp_of_up up _)
    rw [run]
    unfold State.endPulse
    rw [pulse]
    exact ⟨fun early => by dsimp only; rw [early]; rfl, fun due => by dsimp only; rw [if_pos due]⟩

end Sys2Proof.Laws

/-! PROOFS. The byte that completes a field of class RW or IDLE, and what the field keeps of the value (R17,
R24, R25, R147, R148, R174). -/

namespace Sys2Proof.Laws

open Sys2Proof.Machine

/-! ## The value that bytes spell -/

theorem foldl_bytes (bs : List Byte) : ∀ v : Nat,
    bs.foldl (fun v b => v * 256 + b.toNat) v = v * 256 ^ bs.length + bigEndian bs := by
  induction bs with
  | nil => exact fun v => by simp [bigEndian]
  | cons b rest ih =>
    intro v
    rw [List.foldl_cons, ih, bigEndian, List.length_cons, Nat.pow_succ, Nat.add_mul, Nat.mul_assoc,
      Nat.mul_comm 256, Nat.add_assoc]

theorem bytesValue_eq (bs : List Byte) : bytesValue bs = bigEndian bs := by
  unfold bytesValue
  rw [foldl_bytes, Nat.zero_mul, Nat.zero_add]

theorem bigEndian_lt (bs : List Byte) : bigEndian bs < 256 ^ bs.length := by
  induction bs with
  | nil => exact Nat.one_pos
  | cons b rest ih =>
    have byte : b.toNat + 1 ≤ 256 := b.isLt
    have room := Nat.mul_le_mul_right (256 ^ rest.length) byte
    rw [Nat.add_mul, Nat.one_mul] at room
    rw [bigEndian, List.length_cons, Nat.pow_succ, Nat.mul_comm (256 ^ rest.length)]
    omega

theorem bigEndian_single (b : Byte) : bigEndian [b] = b.toNat := by simp [bigEndian]

/-- The byte that completes a field writes the whole value. -/
theorem exec_of_completes {s : State} {f : RegField} {b : Byte} {v : Nat} (whole : s.completes f b v)
    (value : f.access = .rw ∨ f.access = .idle) (other : f.reg ≠ .page) {c : Instr}
    (carries : dataByteOf c = some b) : exec c s = .next (s.wholeValue f v) ∧ v < 256 ^ f.bytes := by
  obtain ⟨bs, stands, length, rfl, staging⟩ := whole
  rw [exec_fieldByte stands carries]
  have below := bigEndian_lt (bs ++ [b])
  rw [List.length_append, List.length_singleton, length] at below
  refine ⟨congrArg Host.Outcome.next ?_, below⟩
  by_cases single : f.bytes = 1
  · have none : bs = [] := List.eq_nil_of_length_eq_zero (by omega)
    rw [fieldByte_single value other single, none, List.nil_append, bigEndian_single]
  · have later : bs.length ≠ 0 := by omega
    have held := staging.resolve_left (fun none => later (none ▸ rfl))
    rw [fieldByte_staged value other single,
      stagedByte_last (stagedFor_of_staging later held) (Nat.le_of_eq length.symm), bytesValue_eq]

/-! ## The fields of the map -/

/-- The bytes of the configuration fields whose value is bounded by its width alone (table 11.4). -/
def ringWidth (x : RingReg) : Option Nat :=
  match x with
  | .putBase | .takeBase | .storageBase | .fillWord => some 4
  | .cadenceMin | .cadenceMax => some 3
  | .marker | .parkTimeout | .ageLimit => some 2
  | _ => none

/-- The bytes of the setup fields whose value is bounded by its width alone (table 11.10). -/
def surveyWidth (x : SurveyReg) : Option Nat :=
  match x with
  | .interval | .lowLimit | .highLimit => some 2
  | _ => none

/-- Those bytes of any field. -/
def regWidth (reg : Reg) : Option Nat :=
  match reg with
  | .ring _ x => ringWidth x
  | .survey x => surveyWidth x
  | .page | .global _ => none

theorem regWidth_pageFields : ∀ p : Fin 18, ∀ f ∈ pageFields p, (regWidth f.reg).all (fun n => n == f.bytes) = true := by
  decide +kernel

theorem access_of_writable : ∀ p : Fin 18, ∀ f ∈ pageFields p,
    f.reg = .global .scratch ∨ f.reg = .global .downTimeout → f.access = .rw := by decide +kernel

theorem mem_of_completes {s : State} {f : RegField} {b : Byte} {v : Nat} (whole : s.completes f b v) :
    f ∈ pageFields s.port.page := by
  obtain ⟨_, stands, -⟩ := whole
  exact portField_mem stands.2.2.1

/-! ## Values of a ring's configuration (R24, table 2.2) -/

theorem toNat_baseOf {v : Nat} (lt : v < 2 ^ 32) : (baseOf v).toNat = v / 4 * 4 := by
  unfold baseOf
  rw [BitVec.toNat_ofNat, Nat.mod_eq_of_lt (by omega)]

theorem code_kindOfBit (v : Nat) : (Kind.ofBit v).code = v % 2 := by
  unfold Kind.ofBit
  split
  · rename_i even
    exact even.symm
  · show 1 = v % 2
    omega

theorem bit_odd (v : Nat) : bit (decide (v % 2 = 1)) = v % 2 := by
  unfold bit
  split <;> rename_i odd <;> simp at odd <;> omega

theorem code_filterOfCode (v : Nat) :
    (Filter.ofCode v).map Filter.code = if v % 32 ≤ 16 then some (v % 32) else none := by
  unfold Filter.ofCode
  dsimp only
  split
  · rename_i lt
    rw [if_pos (Nat.le_of_lt lt)]
    rfl
  · split
    · rename_i any
      rw [any]
      rfl
    · rw [if_neg (by omega)]
      rfl

theorem code_checkOfCode (v : Nat) :
    (CheckMode.ofCode v).map CheckMode.code = if v % 4 ≤ 2 then some (v % 4) else none := by
  have cases4 : v % 4 = 0 ∨ v % 4 = 1 ∨ v % 4 = 2 ∨ v % 4 = 3 := by omega
  unfold CheckMode.ofCode
  rcases cases4 with h | h | h | h <;> rw [h] <;> rfl

theorem code_alignOfCode (v : Nat) :
    (AlignMode.ofCode v).map AlignMode.code = if v % 4 ≤ 2 then some (v % 4) else none := by
  have cases4 : v % 4 = 0 ∨ v % 4 = 1 ∨ v % 4 = 2 ∨ v % 4 = 3 := by omega
  unfold AlignMode.ofCode
  rcases cases4 with h | h | h | h <;> rw [h] <;> rfl

theorem toNat_atMost1000 (v : Nat) : (atMost1000 v).map BitVec.toNat = if v ≤ 1000 then some v else none := by
  unfold atMost1000
  by_cases above : 1000 < v
  · rw [if_pos above, if_neg (by omega)]
    rfl
  · rw [if_neg above, if_pos (by omega), Option.map_some, BitVec.toNat_ofNat, Nat.mod_eq_of_lt (by omega)]

/-- The field written reads as what table 11.4 keeps of the value; none where the write is refused. -/
theorem read_write_self (c : RingConfig) (x : RingReg) {v : Nat} (fits : ∀ n, ringWidth x = some n → v < 256 ^ n) :
    (c.write x v).map (fun c' => c'.read x) = (x.stored v).map some := by
  have whole {w : Nat} (lt : v < 2 ^ w) : (BitVec.ofNat w v).toNat = v := Nat.mod_eq_of_lt lt
  have mapped {α : Type} {o : Option α} {code : α → Nat} {p : Option Nat} (codes : o.map code = p)
      {g : α → RingConfig} (reads : ∀ a, (g a).read x = some (code a)) :
      (o.map g).map (fun c' => c'.read x) = p.map some := by
    subst codes
    cases o with
    | none => rfl
    | some a => exact congrArg some (reads a)
  cases x
  case kind => exact congrArg (fun n => some (some n)) (code_kindOfBit v)
  case takeCheck | guard => exact congrArg (fun n => some (some n)) (bit_odd v)
  case putBase | takeBase | storageBase => exact congrArg (fun n => some (some n)) (toNat_baseOf (fits 4 rfl))
  case fillWord | cadenceMin | cadenceMax | marker | parkTimeout | ageLimit =>
    exact congrArg (fun n => some (some n)) (whole (fits _ rfl))
  case producer | consumer => exact mapped (code_filterOfCode v) (fun _ => rfl)
  case checkMode => exact mapped (code_checkOfCode v) (fun _ => rfl)
  case alignMode => exact mapped (code_alignOfCode v) (fun _ => rfl)
  case searchTimeout | errorThreshold => exact mapped (toNat_atMost1000 v) (fun _ => rfl)
  case sizeCode | slotCount | highMark | centre =>
    exact congrArg (fun n => some (some n)) (BitVec.toNat_ofNat ..)
  case absenceLimit =>
    unfold RingConfig.write RingReg.stored
    dsimp only
    split <;> rfl
  all_goals rfl

/-- A write of one field leaves what every other field reads as. -/
theorem read_write_other {c c' : RingConfig} {x y : RingReg} {v : Nat} (written : c.write x v = some c')
    (other : y ≠ x) : c'.read y = c.read y := by
  have mapped {α : Type} {o : Option α} {g : α → RingConfig} (h : o.map g = some c') : ∃ a, c' = g a := by
    obtain ⟨a, -, is⟩ := Option.map_eq_some_iff.1 h
    exact ⟨a, is.symm⟩
  cases x
  case producer | consumer | checkMode | alignMode | searchTimeout | errorThreshold =>
    obtain ⟨_, rfl⟩ := mapped written
    cases y <;> first | rfl | exact absurd rfl other
  case absenceLimit =>
    obtain ⟨-, is⟩ := Option.ite_none_left_eq_some.1 written
    cases is
    cases y <;> first | rfl | exact absurd rfl other
  all_goals
    cases written
  all_goals
    cases y <;> first | rfl | exact absurd rfl other

/-! ## Values of the survey's setup (R147, table 9.2) -/

theorem code_quantityOfCode (v : Nat) :
    (Quantity.ofCode v).map Quantity.code = if v ≤ 1 then some v else none := by
  match v with
  | 0 | 1 => rfl
  | v + 2 => exact (if_neg (by omega)).symm

theorem code_triggerOfCode (v : Nat) : (Trigger.ofCode v).map Trigger.code = if v ≤ 4 then some v else none := by
  match v with
  | 0 | 1 | 2 | 3 | 4 => rfl
  | v + 5 => exact (if_neg (by omega)).symm

/-- The setup field written reads as what table 11.10 keeps of the value; none where the write is refused. -/
theorem survey_read_write_self (u : Survey) (x : SurveyReg) {v : Nat} (fits : ∀ n, surveyWidth x = some n → v < 256 ^ n) :
    (u.write x v).map (fun u' => u'.read x) = x.stored v := by
  have whole (lt : v < 2 ^ 16) : (BitVec.ofNat 16 v).toNat = v := Nat.mod_eq_of_lt lt
  cases x
  case source =>
    unfold Survey.write SurveyReg.stored
    dsimp only
    by_cases lt : v < 16
    · rw [dif_pos lt, if_pos (by omega)]
      rfl
    · rw [dif_neg lt, if_neg (by omega)]
      rfl
  case quantity => exact (Option.map_map ..).trans (code_quantityOfCode v)
  case trigger => exact (Option.map_map ..).trans (code_triggerOfCode v)
  case samples =>
    unfold Survey.write SurveyReg.stored
    dsimp only
    by_cases off : v = 0 ∨ 256 < v
    · rw [if_pos off, if_neg (by omega)]
      rfl
    · rw [if_neg off, if_pos (by omega)]
      exact congrArg some (whole (by omega))
  case interval =>
    unfold Survey.write SurveyReg.stored
    dsimp only
    split
    · rfl
    · exact congrArg some (whole (fits _ rfl))
  case syncDelay =>
    unfold Survey.write SurveyReg.stored
    dsimp only
    by_cases above : 1023 < v
    · rw [if_pos above, if_neg (by omega)]
      rfl
    · rw [if_neg above, if_pos (by omega)]
      exact congrArg some (whole (by omega))
  case holdoff | repeats => exact congrArg some (bit_odd v)
  case lowLimit | highLimit => exact congrArg some (whole (fits _ rfl))
  all_goals rfl

/-- A write of one setup field leaves the unit outside its setup and results, and what every other setup field
reads as. -/
theorem survey_write_frame {u u' : Survey} {x : SurveyReg} {v : Nat} (written : u.write x v = some u') :
    u' = { u with
      setup := u'.setup
      results := if x = .samples then SurveyResults.zero else u.results } ∧
    ∀ y, y ≠ x → (∃ m k, SurveyReg.stored y m = some k) → u'.read y = u.read y := by
  have ofMap {α : Type} {o : Option α} {g : α → Survey} (h : o.map g = some u') : ∃ a, u' = g a := by
    obtain ⟨a, -, is⟩ := Option.map_eq_some_iff.1 h
    exact ⟨a, is.symm⟩
  cases x
  case source =>
    obtain ⟨_, is⟩ := Option.dite_none_right_eq_some.1 written
    cases is
    refine ⟨rfl, fun y other setup => ?_⟩
    cases y <;> first | rfl | exact absurd rfl other
  case quantity | trigger =>
    obtain ⟨_, rfl⟩ := ofMap written
    refine ⟨rfl, fun y other setup => ?_⟩
    cases y <;> first | rfl | exact absurd rfl other
  case samples =>
    obtain ⟨-, is⟩ := Option.ite_none_left_eq_some.1 written
    cases is
    refine ⟨rfl, fun y other ⟨_, _, setup⟩ => ?_⟩
    cases y <;> first | rfl | exact absurd rfl other | cases setup
  case interval | syncDelay =>
    obtain ⟨-, is⟩ := Option.ite_none_left_eq_some.1 written
    cases is
    refine ⟨rfl, fun y other setup => ?_⟩
    cases y <;> first | rfl | exact absurd rfl other
  case holdoff | lowLimit | highLimit | repeats =>
    cases written
    refine ⟨rfl, fun y other setup => ?_⟩
    cases y <;> first | rfl | exact absurd rfl other
  all_goals cases written

/-! ## The byte that completes a field -/

theorem lt_of_regWidth {s : State} {f : RegField} {b : Byte} {v : Nat} (whole : s.completes f b v)
    (below : v < 256 ^ f.bytes) {n : Nat} (width : regWidth f.reg = some n) : v < 256 ^ n := by
  have bytes := regWidth_pageFields _ f (mem_of_completes whole)
  rw [width] at bytes
  rw [eq_of_beq bytes]
  exact below

/-- Settles O50: the byte writes the whole value, which the field keeps or refuses by its class and its value
rules. -/
theorem lastBytesWriteTheValue : Obligations.LastBytesWriteTheValue := by
  intro s f b v refused whole refuses
  have nack : refused = s.portNack := refuses
  rw [nack]
  refine ⟨fun r x isRing idle => ?_, fun x isSurvey idle => ?_, fun scratch => ?_, fun timeout => ?_⟩
  · have page : f.reg ≠ .page := by rw [isRing]; nofun
    obtain ⟨run, below⟩ := exec_of_completes whole (.inr idle) page (c := .registerWrite b) rfl
    have reads := read_write_self (s.ring r).config x (v := v)
      (fun n width => lt_of_regWidth whole below (by rw [isRing]; exact width))
    have allows : s.classAllows f v = decide ((s.ring r).state = .idle) := by
      rw [classAllows_idle idle, isRing]
      show (decide ((s.ring r).state = .idle) || (decide (Reg.ring r x = .survey .repeats) && _)) = _
      rw [decide_eq_false (by nofun : Reg.ring r x ≠ .survey .repeats), Bool.false_and, Bool.or_false]
    have written : s.writeReg f.reg v =
        ((s.ring r).config.write x v).map (fun c => s.modRing r (fun y => { y with config := c })) := by
      rw [isRing]
      rfl
    rw [run]
    refine ⟨fun rests n stored => ?_, fun refusal => ?_⟩
    · rw [stored] at reads
      obtain ⟨c, takes, read⟩ := Option.map_eq_some_iff.1 reads
      rw [takes] at written
      refine ⟨c, ?_, read, fun y other => read_write_other takes other⟩
      rw [wholeValue_written ((writeField_of_allowed (by rw [allows, decide_eq_true rests])).trans written)]
      rfl
    · refine congrArg Host.Outcome.next (wholeValue_refused ?_)
      by_cases rests : (s.ring r).state = .idle
      · rw [refusal.resolve_left (not_not_intro rests)] at reads
        rw [writeField_of_allowed (by rw [allows, decide_eq_true rests]), written, Option.map_eq_none_iff.1 reads]
        rfl
      · exact writeField_of_not (by rw [allows, decide_eq_false rests])
  · have page : f.reg ≠ .page := by rw [isSurvey]; nofun
    obtain ⟨run, below⟩ := exec_of_completes whole (.inr idle) page (c := .registerWrite b) rfl
    have reads := survey_read_write_self s.survey x (v := v)
      (fun n width => lt_of_regWidth whole below (by rw [isSurvey]; exact width))
    have allows : s.classAllows f v = true ↔ s.survey.state = .idle ∨ (x = .repeats ∧ v % 2 = 0) := by
      rw [classAllows_idle idle, isSurvey]
      simp [State.ownerIdle]
    have written : s.writeReg f.reg v = (s.survey.write x v).map (fun u => s.modSurvey (fun _ => u)) := by
      rw [isSurvey]
      rfl
    rw [run]
    refine ⟨fun free n stored => ?_, fun refusal => ?_,
      fun _ => (exec_of_completes whole (.inr idle) page rfl).1⟩
    · rw [stored] at reads
      obtain ⟨u, takes, read⟩ := Option.map_eq_some_iff.1 reads
      rw [takes] at written
      obtain ⟨frame, others⟩ := survey_write_frame takes
      refine ⟨u, ?_, read, frame, others⟩
      rw [wholeValue_written ((writeField_of_allowed (allows.2 free)).trans written)]
      rfl
    · refine congrArg Host.Outcome.next (wholeValue_refused ?_)
      by_cases free : s.survey.state = .idle ∨ (x = .repeats ∧ v % 2 = 0)
      · have none := refusal.resolve_left (fun h => free.elim h.1 h.2)
        rw [none] at reads
        rw [writeField_of_allowed (allows.2 free), written, Option.map_eq_none_iff.1 reads]
        rfl
      · exact writeField_of_not (Bool.eq_false_iff.2 (fun h => free (allows.1 h)))
  · have plain := access_of_writable _ f (mem_of_completes whole) (.inl scratch)
    have run := (exec_of_completes whole (.inl plain) (by rw [scratch]; nofun) (c := .registerWrite b) rfl).1
    have written : s.writeField f v = some (s.modPort (fun p => { p with scratch := BitVec.ofNat 32 v })) := by
      rw [writeField_of_allowed (classAllows_rw plain s v), scratch]
      rfl
    rw [run, wholeValue_written written]
    rfl
  · have plain := access_of_writable _ f (mem_of_completes whole) (.inr timeout)
    have run := (exec_of_completes whole (.inl plain) (by rw [timeout]; nofun)
      (c := .downstreamTimeoutWrite b) rfl).1
    have written : s.writeField f v =
        if v < 16 then none else some { s with downTimeout := BitVec.ofNat 16 v } := by
      rw [writeField_of_allowed (classAllows_rw plain s v), timeout]
      rfl
    rw [run]
    refine ⟨fun room => ?_, fun short => ?_⟩
    · rw [if_neg (Nat.not_lt.2 room)] at written
      rw [wholeValue_written written]
      rfl
    · rw [if_pos short] at written
      rw [wholeValue_refused written]

end Sys2Proof.Laws

/-! PROOFS. Reads at the management port: the latches, and the bits of the packed readouts (R46, R172, R175;
tables 11.3 to 11.10). -/

namespace Sys2Proof.Laws

open Sys2Proof.Machine

/-! ## A byte of a read transaction (R172, R175) -/

theorem readByte_of_readsByte {s : State} {f : RegField} {j : Nat} (stands : s.readsByte f j) (ack : Bool) :
    s.readByte ack = (s.latch f j).modPort (fun p => p.sent ((s.latch f j).byteSent f j) ack) := by
  obtain ⟨-, reads, field, sub⟩ := stands
  have place : s.port.sub.toNat - f.low = j := by rw [sub, Nat.add_sub_cancel_left]
  unfold State.readByte
  rw [if_pos reads, field]
  dsimp only
  rw [place]

theorem exec_fieldReadLatch {s : State} {f : RegField} {j : Nat} (stands : s.readsByte f j) (ack : Bool) :
    exec (.fieldReadLatch ack) s =
      .next ((s.latch f j).modPort (fun p => p.sent ((s.latch f j).byteSent f j) ack)) :=
  congrArg Host.Outcome.next ((whileUp_of_up stands.1 _).trans (readByte_of_readsByte stands ack))

theorem latch_none {f : RegField} {j : Nat} (kept : f.bytes = 1 ∨ j ≠ 0) (s : State) : s.latch f j = s := if_pos kept

theorem latch_first {f : RegField} (long : f.bytes ≠ 1) (s : State) : s.latch f 0 = { s with
    port := { s.port with
      latches := sparsePut 0 s.port.latches (latchKey s.port.page f) (BitVec.ofNat 64 (s.readReg f.reg)) } } :=
  if_neg (fun h => h.elim long (fun later => later rfl))

theorem byteSent_single {f : RegField} (single : f.bytes = 1) (s : State) (j : Nat) :
    s.byteSent f j = byteOf 1 (s.readReg f.reg) 0 := if_pos single

theorem byteSent_latched {f : RegField} (long : f.bytes ≠ 1) (s : State) (j : Nat) :
    s.byteSent f j = byteOf f.bytes (sparseGet 0 s.port.latches (latchKey s.port.page f)).toNat j := if_neg long

/-- Settles O51: a byte of a field of one byte, the first byte of a longer field, and a later one. -/
theorem readsLatchWholeFields : Obligations.ReadsLatchWholeFields := by
  intro s f j ack stands canonical
  have inside := lt_bytes_of_portField stands.2.2.1 stands.2.2.2
  have run := exec_fieldReadLatch stands ack
  by_cases single : f.bytes = 1
  · have first : j = 0 := by omega
    subst first
    rw [latch_none (.inl single), byteSent_single single] at run
    refine ⟨_, s.readReg f.reg, run, ?_, fun _ => ⟨rfl, rfl⟩, fun long => absurd single long,
      fun long => absurd single long, rfl⟩
    rw [single]
    rfl
  · by_cases first : j = 0
    · subst first
      have written : sparseGet 0
          (sparsePut 0 s.port.latches (latchKey s.port.page f) (BitVec.ofNat 64 (s.readReg f.reg)))
          (latchKey s.port.page f) = BitVec.ofNat 64 (s.readReg f.reg) :=
        sparseGet_put_self 0 _ _ canonical.2
      rw [latch_first single, byteSent_latched single] at run
      refine ⟨_, (BitVec.ofNat 64 (s.readReg f.reg)).toNat, run, ?_, fun short => absurd short single,
        fun _ _ fits => ⟨Nat.mod_eq_of_lt fits, fun n => ?_⟩, fun _ later => absurd rfl later, rfl⟩
      · show Reply.sent (byteOf f.bytes (sparseGet (0 : BitVec 64) (sparsePut 0 _ _ _) (latchKey s.port.page f)).toNat 0) = _
        rw [written]
        rfl
      · show sparseGet (0 : BitVec 64) (sparsePut 0 _ _ _) n = _
        split
        · rename_i same
          rw [same, BitVec.ofNat_toNat, BitVec.setWidth_eq]
          exact written
        · rename_i other
          exact sparseGet_put_other 0 _ other canonical.2
    · rw [latch_none (.inr first), byteSent_latched single] at run
      exact ⟨_, (sparseGet 0 s.port.latches (latchKey s.port.page f)).toNat, run, rfl,
        fun short => absurd short single, fun _ zero => absurd zero first, fun _ _ => ⟨rfl, rfl⟩, rfl⟩

/-! ## Packed values -/

/-- The bits of the fields together. -/
def packWidth (fields : List (Nat × Nat)) : Nat := (fields.map Prod.fst).sum

theorem foldl_pack (fields : List (Nat × Nat)) : ∀ acc, ∃ rest < 2 ^ packWidth fields,
    fields.foldl (fun acc f => acc * 2 ^ f.1 + f.2 % 2 ^ f.1) acc = acc * 2 ^ packWidth fields + rest := by
  induction fields with
  | nil => exact fun acc => ⟨0, Nat.one_pos, by simp [packWidth]⟩
  | cons f tail ih =>
    intro acc
    obtain ⟨rest, below, packed⟩ := ih (acc * 2 ^ f.1 + f.2 % 2 ^ f.1)
    have width : packWidth (f :: tail) = f.1 + packWidth tail := List.sum_cons
    have field : f.2 % 2 ^ f.1 < 2 ^ f.1 := Nat.mod_lt _ (Nat.two_pow_pos _)
    refine ⟨f.2 % 2 ^ f.1 * 2 ^ packWidth tail + rest, ?_, ?_⟩
    · rw [width, Nat.pow_add]
      have room := Nat.mul_le_mul_right (2 ^ packWidth tail) (Nat.succ_le_of_lt field)
      rw [Nat.succ_mul] at room
      omega
    · rw [List.foldl_cons, packed, width, Nat.pow_add, Nat.add_mul, Nat.mul_assoc, Nat.add_assoc]

theorem packBits_lt (fields : List (Nat × Nat)) : packBits fields < 2 ^ packWidth fields := by
  obtain ⟨rest, below, packed⟩ := foldl_pack fields 0
  unfold packBits
  rw [packed, Nat.zero_mul, Nat.zero_add]
  exact below

/-- The bits of field `i`, above those of the fields behind it. -/
theorem bitsOf_packBits {fields : List (Nat × Nat)} (i low : Nat) {w x : Nat} (field : fields[i]? = some (w, x))
    (place : packWidth (fields.drop (i + 1)) = low) : bitsOf (packBits fields) low w = x % 2 ^ w := by
  obtain ⟨lt, is⟩ := List.getElem?_eq_some_iff.1 field
  have split : fields = fields.take i ++ (w, x) :: fields.drop (i + 1) := by
    rw [← is, List.getElem_cons_drop, List.take_append_drop]
  have packed : packBits fields = (fields.drop (i + 1)).foldl (fun acc f => acc * 2 ^ f.1 + f.2 % 2 ^ f.1)
      (packBits (fields.take i) * 2 ^ w + x % 2 ^ w) := by
    conv_lhs => rw [split]
    unfold packBits
    rw [List.foldl_append, List.foldl_cons]
  obtain ⟨rest, below, value⟩ := foldl_pack (fields.drop (i + 1)) (packBits (fields.take i) * 2 ^ w + x % 2 ^ w)
  rw [place] at below value
  unfold bitsOf
  rw [packed, value, Nat.mul_comm _ (2 ^ low), Nat.mul_add_div (Nat.two_pow_pos _), Nat.div_eq_of_lt below,
    Nat.add_zero, Nat.mul_comm _ (2 ^ w), Nat.mul_add_mod, Nat.mod_mod]

theorem bit_lt (b : Bool) : bit b < 2 := by cases b <;> decide

/-- Bits of different weights, summed. -/
theorem sum_bits (p : Nat → Bool) (n : Nat) : ((List.range n).map (fun i => bit (p i) * 2 ^ i)).sum < 2 ^ n ∧
    ∀ i < n, ((List.range n).map (fun i => bit (p i) * 2 ^ i)).sum.testBit i = p i := by
  induction n with
  | zero => exact ⟨Nat.one_pos, fun i lt => absurd lt (Nat.not_lt_zero i)⟩
  | succ n ih =>
    obtain ⟨below, bits⟩ := ih
    have sum : ((List.range (n + 1)).map (fun i => bit (p i) * 2 ^ i)).sum =
        2 ^ n * bit (p n) + ((List.range n).map (fun i => bit (p i) * 2 ^ i)).sum := by
      rw [List.range_succ, List.map_append, List.sum_append, List.map_singleton, List.sum_singleton, Nat.mul_comm,
        Nat.add_comm]
    rw [sum]
    refine ⟨?_, fun i lt => ?_⟩
    · have one := Nat.mul_le_mul_left (2 ^ n) (Nat.le_of_lt_succ (bit_lt (p n)))
      rw [Nat.pow_succ]
      omega
    · rw [Nat.testBit_two_pow_mul_add _ below]
      split
      · rename_i lower
        exact bits i lower
      · have same : i = n := by omega
        rw [same, Nat.sub_self]
        cases p n <;> rfl

/-- A bit for each ring, summed (R164). -/
theorem sum_ringBits (q : RingId → Bool) : (allRings.map (fun r => bit (q r) * 2 ^ r.val)).sum < 2 ^ 16 ∧
    ∀ r : RingId, (allRings.map (fun r => bit (q r) * 2 ^ r.val)).sum.testBit r.val = q r := by
  obtain ⟨below, bits⟩ := sum_bits (fun i => if lt : i < 16 then q ⟨i, lt⟩ else false) 16
  have ranged : allRings.map (fun r => bit (q r) * 2 ^ r.val) =
      (List.range 16).map (fun i => bit (if lt : i < 16 then q ⟨i, lt⟩ else false) * 2 ^ i) := rfl
  rw [ranged]
  exact ⟨below, fun r => (bits r.val r.isLt).trans (dif_pos r.isLt)⟩

/-! ## The codes by their place in the tables -/

theorem bit_mod (b : Bool) : bit b % 2 ^ 1 = bit b := Nat.mod_eq_of_lt (bit_lt b)

/-- Table 11.6: the state readout of a ring. -/
theorem readout_bits (x : Ring) (v : Nat) (is : v = x.readout) : v < 2 ^ 55 ∧
    [LossCause.none, .marker, .rate][bitsOf v 53 2]? = some x.align.lastLoss ∧
    [AlignState.off, .search, .confirm, .aligned, .bypassed][bitsOf v 50 3]? = some x.align.state ∧
    [RingState.idle, .running, .draining, .aborting][bitsOf v 48 2]? = some x.state ∧
    bitsOf v 45 3 = 0 ∧
    [CadenceKind.none, .early, .late][bitsOf v 43 2]? = some x.cadence.lastKind ∧
    bitsOf v 42 1 = bit x.cadence.absent ∧
    [PacedState.none, .priming, .flowing, .replaying][bitsOf v 40 2]? = some x.paced ∧
    bitsOf v 34 6 = 0 ∧ (x.t < 1024 → bitsOf v 24 10 = x.t) ∧
    bitsOf v 19 5 = 0 ∧ (x.occ < 2048 → bitsOf v 8 11 = x.occ) ∧
    bitsOf v 5 3 = 0 ∧ (x.blocks.length ≤ 16 → bitsOf v 0 5 = x.blocks.length) := by
  subst is
  unfold Ring.readout
  rw [bitsOf_packBits 1 53 rfl rfl, bitsOf_packBits 2 50 rfl rfl, bitsOf_packBits 3 48 rfl rfl,
    bitsOf_packBits 4 45 rfl rfl, bitsOf_packBits 5 43 rfl rfl, bitsOf_packBits 6 42 rfl rfl,
    bitsOf_packBits 7 40 rfl rfl, bitsOf_packBits 8 34 rfl rfl, bitsOf_packBits 9 24 rfl rfl,
    bitsOf_packBits 10 19 rfl rfl, bitsOf_packBits 11 8 rfl rfl, bitsOf_packBits 12 5 rfl rfl,
    bitsOf_packBits 13 0 rfl rfl]
  refine ⟨?_, by cases x.align.lastLoss <;> rfl, by cases x.align.state <;> rfl, by cases x.state <;> rfl, rfl,
    by cases x.cadence.lastKind <;> rfl, bit_mod _, by cases x.paced <;> rfl, rfl, Nat.mod_eq_of_lt, rfl,
    Nat.mod_eq_of_lt, rfl, fun few => Nat.mod_eq_of_lt (Nat.lt_of_le_of_lt few (by decide))⟩
  refine lt_of_eq_of_lt ?_ (packBits_lt [(2, x.align.lastLoss.code), (3, x.align.state.code), (2, x.state.code),
    (3, 0), (2, x.cadence.lastKind.code), (1, bit x.cadence.absent), (2, x.paced.code), (6, 0), (10, x.t), (5, 0),
    (11, x.occ), (3, 0), (5, x.blocks.length)])
  rfl

/-- Table 11.8: the readout of a refusal record. -/
theorem refusal_bits (f : RefusalRecord) : f.readout < 2 ^ 64 ∧
    [none, some Cause.aborting, some .wrongRequester, some .mixed, some .wrongDirection,
      some .unusedOffset, some .partialLanes, some .overlength, some .orphanWord,
      some .outsideSlot, some .outOfOrder, some .restarted, some .abandoned, some .queueFull,
      some .ringFull, some .parkExpired, some .consumerAbsent, some .draining, some .downstream,
      some .checkMismatch][bitsOf f.readout 56 8]? = some f.cause ∧
    bitsOf f.readout 55 1 = bit f.valid ∧ bitsOf f.readout 52 3 = 0 ∧ bitsOf f.readout 48 4 = f.requester.val ∧
    (f.offset < 2 ^ 16 → bitsOf f.readout 32 16 = f.offset) ∧ bitsOf f.readout 0 32 = f.time.toNat := by
  unfold RefusalRecord.readout
  dsimp only
  rw [bitsOf_packBits 0 56 rfl rfl, bitsOf_packBits 1 55 rfl rfl, bitsOf_packBits 2 52 rfl rfl,
    bitsOf_packBits 3 48 rfl rfl, bitsOf_packBits 4 32 rfl rfl, bitsOf_packBits 5 0 rfl rfl]
  refine ⟨packBits_lt _, ?_, bit_mod _, rfl, Nat.mod_eq_of_lt f.requester.isLt, Nat.mod_eq_of_lt,
    Nat.mod_eq_of_lt f.time.isLt⟩
  cases f.cause with
  | none => rfl
  | some c => cases c <;> rfl

/-- Table 11.9: the view of a stamp. -/
theorem stamp_bits (e : Stamp) : e.view < 2 ^ 56 ∧ bitsOf e.view 55 1 = 1 ∧ bitsOf e.view 54 1 = bit e.gap ∧
    bitsOf e.view 50 4 = 0 ∧ [CheckState.none, .verified, .generated][bitsOf e.view 48 2]? = some e.check ∧
    bitsOf e.view 40 8 = e.sequence.toNat ∧ bitsOf e.view 32 8 = e.length.toNat ∧
    bitsOf e.view 0 32 = e.commitTime.toNat := by
  unfold Stamp.view
  rw [bitsOf_packBits 0 55 rfl rfl, bitsOf_packBits 1 54 rfl rfl, bitsOf_packBits 2 50 rfl rfl,
    bitsOf_packBits 3 48 rfl rfl, bitsOf_packBits 4 40 rfl rfl, bitsOf_packBits 5 32 rfl rfl,
    bitsOf_packBits 6 0 rfl rfl]
  exact ⟨packBits_lt _, rfl, bit_mod _, rfl, by cases e.check <;> rfl, Nat.mod_eq_of_lt e.sequence.isLt,
    Nat.mod_eq_of_lt e.length.isLt, Nat.mod_eq_of_lt e.commitTime.isLt⟩

theorem readReg_of_state {s : State} {r : RingId} {x : RingReg} (other : (s.ring r).config.read x = none) :
    s.readReg (.ring r x) = s.readRingState r x := by
  show ((s.ring r).config.read x).getD _ = _
  rw [other]
  rfl

/-- Settles O52: the packed readouts by their bits, every other field as the value it names. -/
theorem fieldsReadAsTheTables : Obligations.FieldsReadAsTheTables := by
  refine ⟨fun s => ?_, fun s r => ?_, fun s r c is => ?_, fun s r v is => readout_bits _ v is,
    fun s r v f is => ?_, fun s r v present e is => ?_, fun s => ?_⟩
  · obtain ⟨below, bits⟩ := sum_ringBits (fun r => (s.ring r).events.pending != 0)
    refine ⟨rfl, rfl, rfl, ?_, rfl, rfl, ?_, rfl, rfl, rfl, rfl, rfl, fun sound => ?_, below, fun r => ?_⟩
    · show [_, _, _, _][s.port.resetCause.code]? = _
      cases s.port.resetCause <;> rfl
    · show [_, _, _, _, _][s.port.result.code]? = _
      cases s.port.result <;> rfl
    · exact (Nat.add_comm ..).trans (heldBlocks_add_free sound)
    · refine (bits r).trans ?_
      exact decide_not.symm
  · refine ⟨rfl, ?_, rfl, rfl, fun i => rfl⟩
    show [_, _, _, _, _, _, _, _, _, _, _, _, _, _, _][(s.ring r).result.code]? = _
    cases (s.ring r).result <;> rfl
  · subst is
    have code {x : RingReg} {n : Nat} (reads : (s.ring r).config.read x = some n) : s.readReg (.ring r x) = n := by
      show ((s.ring r).config.read x).getD _ = n
      rw [reads]
      rfl
    refine ⟨?_, fun any => ?_, fun q only => ?_, fun any => ?_, fun q only => ?_, ?_, rfl, ?_, rfl, rfl, rfl, rfl, rfl,
      rfl, rfl, rfl, rfl, rfl, rfl, rfl, rfl, rfl, rfl, rfl, rfl⟩
    · rw [code (x := .kind) rfl]
      cases (s.ring r).config.kind <;> rfl
    · rw [code (x := .producer) rfl, any]
      rfl
    · rw [code (x := .producer) rfl, only]
      rfl
    · rw [code (x := .consumer) rfl, any]
      rfl
    · rw [code (x := .consumer) rfl, only]
      rfl
    · rw [code (x := .checkMode) rfl]
      cases (s.ring r).config.checkMode <;> rfl
    · rw [code (x := .alignMode) rfl]
      cases (s.ring r).config.alignMode <;> rfl
  · have value : v = f.readout := by
      rcases is with ⟨is, rfl⟩ | ⟨is, rfl⟩
      · exact is.trans (readReg_of_state rfl)
      · exact is.trans (readReg_of_state rfl)
    rw [value]
    exact refusal_bits f
  · have value : (¬present → v = 0) ∧ (present → v = e.view) := by
      rcases is with ⟨rfl, shown, rfl⟩ | ⟨rfl, shown, rfl⟩
      · exact ⟨fun absent => if_pos (not_not.1 (mt shown.2 absent)), fun there => if_neg (shown.1 there)⟩
      · exact ⟨fun absent => if_neg (mt shown.2 absent), fun there => if_pos (shown.1 there)⟩
    exact ⟨value.1, fun there => value.2 there ▸ stamp_bits e⟩
  · refine ⟨?_, rfl, rfl, rfl, rfl, rfl, rfl, rfl, ?_, ?_, rfl, rfl, rfl, rfl, rfl, rfl, rfl⟩
    · show [_, _, _][s.survey.state.code]? = _
      cases s.survey.state <;> rfl
    · show [_, _][s.survey.setup.quantity.code]? = _
      cases s.survey.setup.quantity <;> rfl
    · show [_, _, _, _, _][s.survey.setup.trigger.code]? = _
      cases s.survey.setup.trigger <;> rfl

end Sys2Proof.Laws
